-- ==== Sys2Proof/Word.lean ====
section
/-! DEFINITION. The words the KH2212 reads, writes and counts with (spec/00_scope.md, "Units and Number Conventions"). -/

namespace Sys2Proof

/-- One byte, a data symbol of a link or a byte of the service port. -/
abbrev Byte := BitVec 8

/-- A rack time in sub-ticks: every stamp of every parcel (R61, R173). -/
abbrev Stamp := BitVec 64

/-- A beat number, modulo 2^32 (R79). -/
abbrev Beat := BitVec 32

/-- A counter 0..65535 that saturates (R42, R81, R89, R138). -/
abbrev Count := BitVec 16

/-- `clamp(x, lo, hi)` on whole numbers, as spec/00_scope.md defines the word. -/
def clampNat (x lo hi : Nat) : Nat := max lo (min x hi)

/-- `clamp(x, lo, hi)` on signed numbers. -/
def clampInt (x lo hi : Int) : Int := max lo (min x hi)

/-- A count of 16 bits raised by `n`, stopping at 65535. -/
def satAdd (x : Count) (n : Nat) : Count := BitVec.ofNat 16 (min (x.toNat + n) 65535)

/-- A count of 8 bits raised by 1, stopping at 255. -/
def satInc8 (x : Byte) : Byte := BitVec.ofNat 8 (min (x.toNat + 1) 255)

end Sys2Proof
end

