-- ==== Sys2Proof/Config.lean ====
section
/-! DEFINITION. What is fixed for every KH2212, and the one value that the spec leaves open. -/

namespace Sys2Proof.Config

/-- Sub-ticks in one tick (Table 3). -/
def subTicks : Nat := 256

/-- Silence that is a loss, or resets the fill run, in ticks (R8). -/
def silenceLimit : Nat := 256

/-- The error score at which a port is lost (R7). -/
def scoreLimit : Nat := 256

/-- What one check failure or illegal symbol adds to the error score (R7). -/
def scoreStep : Nat := 8

/-- Bytes between LEAD and TAIL of the longest parcel (R3). -/
def longestParcel : Nat := 284

/-- Ticks for which a PRESENT pin must hold a level (R18). -/
def presenceFilter : Nat := 1024

/-- FILL symbols in a row that end LISTENING (R21). -/
def fillRunLimit : Nat := 64

/-- Failed attempts in a row that fault a port (R24). -/
def failureLimit : Nat := 3

/-- Missing steady echoes in a row that lose a port (R30). -/
def missingLimit : Nat := 8

/-- The answer limit of an echo, 4096 ticks in sub-ticks (R45). -/
def answerLimit : Nat := 1048576

/-- Rounds of a training and the least number of valid samples (R50, R52). -/
def trainingRounds : Nat := 8
def trainingQuorum : Nat := 6

/-- Ticks without a rising edge that make REFIN absent (R63). -/
def refinAbsence : Nat := 1024

/-- Rising REFIN edges and received symbol slots per comparison edge (R63, R64). -/
def refinEdgesPerComparison : Nat := 80
def slotsPerComparison : Nat := 2000

/-- Sub-ticks of one comparison interval (R71). -/
def comparisonInterval : Nat := 256000

/-- Ticks without a comparison edge that make the reference absent (R73). -/
def edgeAbsence : Nat := 3000

/-- The lock judgement (R74): window, run that locks, count that fails. -/
def acquireWindow : Nat := 64
def lockRun : Nat := 16
def acquireLimit : Nat := 1024

/-- The window judgement of LOCKED (R75): window and run of excursions. -/
def lockWindow : Nat := 256
def excursionLimit : Nat := 4

/-- Blocks of the sample store and the floor per stream (R106, R108). -/
def blocks : Nat := 1024
def floorBlocks : Nat := 4

/-- Taps per stream (R119). -/
def tapsPerStream : Nat := 6

/-- Copies in a port's trigger queue (R146) and entries in a pin's fire list (R150). -/
def triggerQueue : Nat := 16
def fireList : Nat := 4

/-- Notices in one origin's queue (R158). -/
def noticePlaces : Nat := 7

/-- Completion times of the setup operations, in ticks (R168, R169). -/
def writeTicks : Nat := 187500
def clearTicks : Nat := 2500000

/-- FREE VALUE: the class that a REFERENCE ROLE notice LOST carries when the port's candidacy went in
the same event. R70 names "the port's candidate class" and the spec does not say which class
a port without a candidacy has. The argument tells one such notice from the next.
(notes/assumptions/3.md) -/
opaque lostRoleClass : Nat → BitVec 2

end Sys2Proof.Config
end

