-- ==== Sys2Proof/Syntax.lean ====
section
/-! DEFINITION. The commands of the KH2212: one constructor for each row of spec/opcode_table.json. -/

namespace Sys2Proof

/-- P0..P11. -/
abbrev PortIx := Fin 12
/-- Streams 0..63. -/
abbrev StreamIx := Fin 64
/-- Tap numbers 0..127. -/
abbrev TapIx := Fin 128
/-- Trigger lines 0..31. -/
abbrev LineIx := Fin 32
/-- TRIG0..TRIG3. -/
abbrev PinIx := Fin 4

/-- The sender of an order (R154). -/
inductive Origin where
  | port (p : PortIx)
  | service
  deriving DecidableEq, Repr

/-- What a receiver sorts a received symbol into (Figure 2). -/
inductive Symbol where
  | data (b : Byte)
  | fill
  | lead
  | tail
  | hold
  | go
  | illegal
  deriving DecidableEq, Repr

/-- The elapsed fraction of the clock cycle in progress, in 1/65536 of that cycle (R61). -/
abbrev Fraction := BitVec 16

/-- The commands: operations on the hub and events at its links, pins and service port, and the
steps that the passage of time brings. `p` is the port concerned, `f` the fraction of the cycle
at which the event falls, `second` the second of the two symbol slots of a tick. An order is given
by its origin, its ident and its argument bytes as received. -/
inductive Instr where
  -- power and presence
  | powerOn (present : BitVec 12) (wires : BitVec 4)
  | resetnLow
  | presenceChange (p : PortIx) (level : Bool) (held : Nat)
  -- the receive side of a link
  | receivedSymbol (p : PortIx) (symbol : Symbol) (f : Fraction)
  | hold (p : PortIx) (f : Fraction)
  | go (p : PortIx) (f : Fraction)
  | silence (p : PortIx)
  -- the transmit side of a link
  | freeBoundary (p : PortIx) (second : Bool)
  | beatLaunch (p : PortIx) (second : Bool)
  | echoLaunch (p : PortIx) (second : Bool)
  | triggerLaunch (p : PortIx) (second : Bool)
  | noticeReplyLaunch (p : PortIx) (second : Bool)
  | samplesLaunch (p : PortIx) (second : Bool)
  | samplesTail (p : PortIx)
  -- departures and drains
  | drainEnd (st : StreamIx)
  | farewellQueued (p : PortIx)
  | farewellTail (p : PortIx)
  -- echoes
  | echoBack (p : PortIx) (number : Byte) (h : BitVec 24) (f : Fraction)
  | echoAnswerExpiry (p : PortIx)
  -- the beat and what counts in beats
  | beatDue
  | enterActive (p : PortIx)
  | joinLimitExpiry (p : PortIx)
  | holdLimitExpiry (p : PortIx)
  | startBeat (st : StreamIx)
  | orphanHoldExpiry (st : StreamIx)
  | drainDeadlineExpiry (st : StreamIx)
  | stagedAlteration (t : TapIx)
  | holdoverExpiry
  -- the reference
  | refinEdge (f : Fraction)
  | refinAbsence
  | comparison (f : Fraction)
  | edgeAbsence
  -- samples and triggers
  | samplesInbound (p : PortIx) (tag : Byte) (sequence count : BitVec 16) (stamp : Stamp) (payload : List Byte)
  | triggerInbound (p : PortIx) (line : Byte) (stamp : Stamp) (f : Fraction)
  | pinEdge (pin : PinIx) (level : Bool)
  | pinFire (pin : PinIx)
  | pulseEnd (pin : PinIx)
  -- the orders
  | join (o : Origin) (ident : Byte) (args : List Byte) (f : Fraction)
  | detach (o : Origin) (ident : Byte) (args : List Byte) (f : Fraction)
  | resetLink (o : Origin) (ident : Byte) (args : List Byte) (f : Fraction)
  | readLink (o : Origin) (ident : Byte) (args : List Byte) (f : Fraction)
  | proposeReference (o : Origin) (ident : Byte) (args : List Byte) (f : Fraction)
  | withdrawReference (o : Origin) (ident : Byte) (args : List Byte) (f : Fraction)
  | readTimebase (o : Origin) (ident : Byte) (args : List Byte) (f : Fraction)
  | openStream (o : Origin) (ident : Byte) (args : List Byte) (f : Fraction)
  | closeStream (o : Origin) (ident : Byte) (args : List Byte) (f : Fraction)
  | findStream (o : Origin) (ident : Byte) (args : List Byte) (f : Fraction)
  | readStream (o : Origin) (ident : Byte) (args : List Byte) (f : Fraction)
  | addTap (o : Origin) (ident : Byte) (args : List Byte) (f : Fraction)
  | alterTap (o : Origin) (ident : Byte) (args : List Byte) (f : Fraction)
  | dropTap (o : Origin) (ident : Byte) (args : List Byte) (f : Fraction)
  | setLine (o : Origin) (ident : Byte) (args : List Byte) (f : Fraction)
  | subscribeLine (o : Origin) (ident : Byte) (args : List Byte) (f : Fraction)
  | unsubscribeLine (o : Origin) (ident : Byte) (args : List Byte) (f : Fraction)
  | readLine (o : Origin) (ident : Byte) (args : List Byte) (f : Fraction)
  | setPin (o : Origin) (ident : Byte) (args : List Byte) (f : Fraction)
  | readPin (o : Origin) (ident : Byte) (args : List Byte) (f : Fraction)
  | readStore (o : Origin) (ident : Byte) (args : List Byte) (f : Fraction)
  | setParam (o : Origin) (ident : Byte) (args : List Byte) (f : Fraction)
  | setupRead (o : Origin) (ident : Byte) (args : List Byte) (f : Fraction)
  | setupWrite (o : Origin) (ident : Byte) (args : List Byte) (f : Fraction)
  | setupWriteCompletion
  | setupClear (o : Origin) (ident : Byte) (args : List Byte) (f : Fraction)
  | setupClearCompletion
  | restartHub (o : Origin) (ident : Byte) (args : List Byte) (f : Fraction)
  | restartCompletion
  | replyPlacement (o : Origin)
  -- the service port
  | send (bytes : List Byte) (f : Fraction)
  | fetch (f : Fraction)
  | fetchCompletion
  | chipSelectRising
  | fillerByteShiftedOut
  deriving DecidableEq, Repr

end Sys2Proof
end

