-- ==== Sys2Proof/Decode.lean ====
section
/-! DEFINITION. The command that a word spells by the opcode table's bits. No row of
spec/opcode_table.json gives bits (every "fields" is empty, and spec/98_reader.md counts no row with
fixed bits), so no word spells a command. The byte codes of orders and parcels (R174, R176) are read
in Machine/Operands.lean and Machine/Orders.lean. -/

namespace Sys2Proof

/-- No row of the table gives bits: no word spells a command. -/
def decodeTableWord (_nbits _w : Nat) : Option Instr := none

end Sys2Proof
end

