-- ==== Sys2Proof/WellFormed.lean ====
section
/-! DEFINITION. Which commands are well formed: the lengths that the frame of a parcel allows (R3, R9, R174). -/

namespace Sys2Proof

/-- An order carries 0..32 argument bytes (R9). -/
def argsFit (args : List Byte) : Bool := args.length ≤ 32

/-- A SAMPLES parcel carries 0..256 payload bytes (R9). -/
def payloadFits (payload : List Byte) : Bool := payload.length ≤ 256

/-- The order of a command, if the command is one: its origin, ident and argument bytes. -/
def Instr.order? : Instr → Option (Origin × Byte × List Byte)
  | .join o i a _ | .detach o i a _ | .resetLink o i a _ | .readLink o i a _ => some (o, i, a)
  | .proposeReference o i a _ | .withdrawReference o i a _ | .readTimebase o i a _ => some (o, i, a)
  | .openStream o i a _ | .closeStream o i a _ | .findStream o i a _ | .readStream o i a _ => some (o, i, a)
  | .addTap o i a _ | .alterTap o i a _ | .dropTap o i a _ | .setLine o i a _ => some (o, i, a)
  | .subscribeLine o i a _ | .unsubscribeLine o i a _ | .readLine o i a _ | .setPin o i a _ => some (o, i, a)
  | .readPin o i a _ | .readStore o i a _ | .setParam o i a _ | .setupRead o i a _ => some (o, i, a)
  | .setupWrite o i a _ | .setupClear o i a _ | .restartHub o i a _ => some (o, i, a)
  | _ => none

/-- A well-formed command: an order's arguments and a SAMPLES payload fit their parcels, and bytes
shifted into the service port are at least one (its lead byte). A command that is not well formed
still runs: the parcel it stands for is malformed (R9) or shifts nothing in. -/
def Instr.wellFormed (i : Instr) : Bool :=
  match i.order?, i with
  | some (_, _, args), _ => argsFit args
  | none, .samplesInbound _ _ _ _ _ payload => payloadFits payload
  | none, .send bytes _ => !bytes.isEmpty
  | none, _ => true

end Sys2Proof
end

