-- ==== Sys2Proof/Machine/State.lean ====
section
/-! DEFINITION. The state of the KH2212 as plain data, block by block (Table 2), and its value after reset. -/

namespace Sys2Proof.Machine

/-! ### Faults and refusals -/

/-- The KH2212 has no behaviour that stops it: every row of the opcode table answers a next state.
The constructor is raised by nothing; it keeps the type inhabited (safe). -/
inductive Fault where
  /-- Raised by no command. Safe. -/
  | unreached
  deriving DecidableEq, Repr

/-- Why a command has no meaning. -/
inductive Refusal where
  /-- A row without a meaning yet; raised by no arm of `exec` in this model. Safe. -/
  | notModelled (mnemonic : String)
  deriving DecidableEq, Repr

/-! ### The clock (R61) -/

/-- Rack time and what stands below and beside it. -/
structure Clock where
  /-- Rack time, sub-ticks (R61). -/
  rackTime : Stamp
  /-- Residue in 1/65536 sub-tick (R61). -/
  residue : BitVec 16
  /-- MODEL'S OWN: cycles of the internal clock since power-on; every measurement in ticks is a
  difference of two such counts. (notes/assumptions/4.md) -/
  cycle : Nat
  /-- MODEL'S OWN: whole sub-ticks of the cycle in progress elapsed at the last event (R61). -/
  elapsed : Nat
  /-- What the cycle in progress adds at its end, in 1/65536 sub-tick: 2^24 + k + j as they stood at its start (R61;
  notes/assumptions/5.md). -/
  increment : Nat
  deriving DecidableEq, Repr

/-! ### Link port controllers -/

/-- The nine port states (Figure 4). -/
inductive PortState where
  | vacant | listening | training | joining | admitted | active | leaving | parked | faulted
  deriving DecidableEq, Repr

/-- Receive framer states (Figure 3). -/
inductive FramerMode where
  | outside | inside | skip
  deriving DecidableEq, Repr

/-- The receive framer: its state and its collection buffer, in order of receipt. -/
structure Framer where
  mode : FramerMode
  buffer : List Byte
  deriving DecidableEq, Repr

/-- The ten counters of a port, in the order of Table 12 (R42). -/
structure PortCounters where
  listenRestarts : Count
  trainingFailures : Count
  checkFailures : Count
  stray : Count
  malformed : Count
  echoRejects : Count
  missedEchoes : Count
  holds : Count
  shedEvents : Count
  triggerOverruns : Count
  deriving DecidableEq, Repr

/-- The frame admitted on a port: frame ID, class and reference intent (R27). -/
structure Frame where
  id : BitVec 32
  cls : Byte
  intent : Bool
  deriving DecidableEq, Repr

/-- One link port controller. -/
structure Port where
  state : PortState
  /-- Filtered presence (R18). -/
  presence : Bool
  /-- The level on the PRESENT pin, and the cycle from which the filter times it (R18; notes/assumptions/12.md). -/
  pin : Bool
  pinSince : Nat
  /-- Fill-run count (R20). -/
  fillRun : Nat
  /-- Consecutive failures 0..3 (R24). -/
  failures : Nat
  /-- Hold state (R11) and hold timer in beats (R29). -/
  held : Bool
  holdBeats : Nat
  /-- Run of missing steady echoes 0..8 (R30). -/
  missRun : Nat
  /-- The frame identity, in ADMITTED, ACTIVE and LEAVING; the registry is these over all ports (R26). -/
  frame : Option Frame
  /-- Admission epoch, in ADMITTED (R27). -/
  epoch : Option Beat
  /-- Join deadline, in JOINING (R25). -/
  joinDeadline : Option Beat
  /-- Error score 0..256 (R7). -/
  score : Nat
  /-- The cycle at which the silence measurement last restarted (R8). -/
  silenceSince : Nat
  /-- Receive time of the last received symbol (R1). -/
  lastReceived : Stamp
  framer : Framer
  counters : PortCounters
  deriving DecidableEq, Repr

/-! ### Delay records (Figure 5) -/

/-- What an echo is for. -/
inductive Purpose where
  | training (round : Nat)
  | steady
  deriving DecidableEq, Repr

/-- An outstanding echo (R45). -/
structure Echo where
  number : Byte
  sent : Stamp
  deadline : Stamp
  purpose : Purpose
  deriving DecidableEq, Repr

/-- A training in progress: its round and the samples of the rounds ended, `none` for MISSING (R51). -/
structure Training where
  round : Nat
  samples : List (Option (BitVec 16))
  deriving DecidableEq, Repr

/-- Tracking mode (R57). -/
inductive Tracking where
  | prompt | steady
  deriving DecidableEq, Repr

/-- The delay estimate with its tracking mode, accepted count and reject run (R54). -/
structure Estimate where
  value : BitVec 16
  mode : Tracking
  accepted : Nat
  rejects : Nat
  deriving DecidableEq, Repr

/-- The delay record of one port. -/
structure Delay where
  nextEcho : Byte
  due : Option Purpose
  outstanding : Option Echo
  training : Option Training
  estimate : Option Estimate
  deriving DecidableEq, Repr

/-! ### Egress -/

/-- What the TAIL of a parcel in flight does. -/
inductive FlightKind where
  /-- Nothing but free the transmitter. -/
  | plain
  /-- Parks the port (R33). -/
  | farewell
  /-- Releases a tap's reference to a block of a stream (R134). -/
  | samples (st : StreamIx) (block : Nat) (t : TapIx)
  deriving DecidableEq, Repr

/-- A parcel in flight: its bytes between LEAD and TAIL and the symbol slot of its LEAD, counted from
power-on at two slots a cycle (R6). -/
structure Flight where
  kind : FlightKind
  bytes : List Byte
  start : Nat
  deriving DecidableEq, Repr

/-- The transmit side of one port. -/
structure Egress where
  /-- The parcel in flight. -/
  flight : Option Flight
  /-- MODEL'S OWN: the first slot after the TAIL of the parcel before the one in flight, 0 where there was none; it tells
  which symbol the first slot of a cycle carried (R6). -/
  lastStop : Nat
  /-- The beat due and not launched (R14). -/
  dueBeat : Option Beat
  /-- Rotation pointer (R135). -/
  rotation : Nat
  deriving DecidableEq, Repr

/-! ### Trigger queues (R146) -/

/-- A copy of an accepted trigger. -/
structure TriggerCopy where
  line : LineIx
  origin : Byte
  fire : Stamp
  clamped : Bool
  overrun : Bool
  merged : Byte
  deriving DecidableEq, Repr

structure TriggerQueue where
  copies : List TriggerCopy
  overrun : Bool
  deriving DecidableEq, Repr

/-! ### Order engine (Figure 12) -/

/-- Result codes (Table 22). -/
inductive ResultCode where
  | done | busy | unknown | badArg | notActive | notOwner | notFound | noRoom | conflict
  | isProtected | notPermitted | aborted
  deriving DecidableEq, Repr

/-- Notice kinds (Table 33). -/
inductive NoticeKind where
  | ease | resume | tapShed | tapEnded | streamOrphaned | streamResumed | streamEnded | adopted
  | farewell | referenceRole | portEvent | timebaseEvent
  deriving DecidableEq, Repr

/-- An order in its slot: RUNNING while `answer` is `none`, ANSWERED after. -/
structure Slot where
  ident : Byte
  code : Byte
  answer : Option (ResultCode × List Byte)
  deriving DecidableEq, Repr

/-- An entry of a notice/reply queue. `own` tells the reply of the order in the slot from a BUSY answer
to a later order (R157). -/
inductive Entry where
  | reply (own : Bool) (ident code : Byte) (result : ResultCode) (bytes : List Byte)
  | notice (kind : NoticeKind) (lost : Byte) (fields : List Byte)
  deriving DecidableEq, Repr

/-- What an origin holds. -/
structure OriginState where
  slot : Option Slot
  queue : List Entry
  lost : Byte
  closed : Bool
  deriving DecidableEq, Repr

/-- What an event posts, held until the event's end for the order of R158. -/
inductive PostItem where
  /-- The reply of the slot, first of what an event places (R158). -/
  | reply
  /-- The DONE of a CLOSE STREAM that a drain's end answers (R98, R99). -/
  | drainReply
  | notice (kind : NoticeKind) (fields : List Byte)
  deriving DecidableEq, Repr

structure Post where
  dest : Origin
  item : PostItem
  deriving DecidableEq, Repr

/-- A transaction of the service port (R162, R163). -/
inductive Transaction where
  | idle
  /-- A SEND whose parcel is not complete: the bytes collected. -/
  | sending (collected : List Byte)
  /-- A SEND after its parcel, a FETCH after its entry, or a transaction with another lead byte:
  ignored to its end. -/
  | ignored
  /-- A FETCH: the filler byte and entry bytes fixed at the lead byte; `live` while that entry is still
  the head of S's queue. -/
  | fetching (filler : Byte) (bytes : List Byte) (live : Bool)
  deriving DecidableEq, Repr

/-- The service port and origin S. -/
structure Service where
  origin : OriginState
  discards : Byte
  transaction : Transaction
  deriving DecidableEq, Repr

/-! ### Streams, the sample store and taps -/

/-- States of a stream that is not FREE (Figure 7). -/
inductive StreamState where
  | opening | flowing | draining | orphaned
  deriving DecidableEq, Repr

/-- A block in a stream FIFO (Figure 8); the stream is the one whose FIFO holds it. -/
structure Block where
  number : Nat
  sequence : BitVec 16
  count : BitVec 16
  stamp : Stamp
  payload : List Byte
  slip : Bool
  resumed : Bool
  refs : Nat
  deriving DecidableEq, Repr

/-- Expected sequence, previous stamp and previous count (R91). -/
structure Baseline where
  expected : BitVec 16
  stamp : Stamp
  count : BitVec 16
  deriving DecidableEq, Repr

/-- The six counters of a stream (R89). -/
structure StreamCounters where
  accepted : Count
  dropped : Count
  stale : Count
  slip : Count
  early : Count
  late : Count
  deriving DecidableEq, Repr

/-- The record of a stream that is not FREE (Table 16). `u` is the length of `fifo` (R107). -/
structure Stream where
  state : StreamState
  producer : Option PortIx
  frameId : BitVec 32
  tag : Byte
  width : Nat
  spp : Nat
  period : Nat
  depth : Nat
  priority : Nat
  startBeat : Beat
  baseline : Option Baseline
  resumeMark : Bool
  eased : Bool
  fifo : List Block
  taps : List TapIx
  counters : StreamCounters
  drainDeadline : Option Beat
  orphanDeadline : Option Beat
  closeBy : Option Origin
  deriving DecidableEq, Repr

/-- The settings of a tap that ALTER TAP replaces as a set (R128). -/
structure TapSettings where
  windowOpen : Option Stamp
  windowClose : Option Stamp
  decimation : Nat
  reversed : Bool
  lag : Nat
  deriving DecidableEq, Repr

/-- A tap (Figure 9). -/
structure Tap where
  stream : StreamIx
  consumer : PortIx
  tag : Byte
  settings : TapSettings
  phase : Option Nat
  pending : List Nat
  inFlight : Option Nat
  sequence : BitVec 16
  owed : Count
  staged : Option TapSettings
  deriving DecidableEq, Repr

/-- The free list and the store-wide counters (R106, R117). -/
structure Store where
  free : List Nat
  lowWater : Nat
  depthDrops : Count
  floorDrops : Count
  deriving DecidableEq, Repr

/-! ### Trigger router -/

/-- A line record (Figure 10); the subscriber pins are the OUT pins on the line. -/
structure Line where
  latency : Nat
  holdoff : Nat
  subscribers : Vector Bool 12
  last : Option Stamp
  pendingMerged : Byte
  accepted : Count
  merged : Count
  late : Count
  deriving DecidableEq, Repr

/-- Pin modes (R148). -/
inductive PinMode where
  | off | input | output
  deriving DecidableEq, Repr

/-- A pulse in progress: start and end (R151). -/
structure Pulse where
  start : Stamp
  stop : Stamp
  deriving DecidableEq, Repr

/-- The five counters of a pin. -/
structure PinCounters where
  edges : Count
  fires : Count
  mergedFires : Count
  lateFires : Count
  overruns : Count
  deriving DecidableEq, Repr

/-- A local trigger pin (Figure 11). Mode, polarity, line and width are working settings (R148).
The polarity is held as its code: RISE, FALL, BOTH 0, 1, 2 in IN; HIGH, LOW 0, 1 in OUT. -/
structure Pin where
  mode : PinMode
  polarity : Nat
  line : LineIx
  width : Nat
  /-- Reference level, read in IN. -/
  reference : Bool
  /-- The level on the wire, as last sampled. -/
  wire : Bool
  fires : List Stamp
  pulse : Option Pulse
  counters : PinCounters
  deriving DecidableEq, Repr

/-! ### Timebase -/

/-- Timebase states (Figure 6). -/
inductive TimebaseState where
  | free | acquiring | locked | holdover
  deriving DecidableEq, Repr

/-- A possible reference. -/
inductive Source where
  | refin
  | port (p : PortIx)
  deriving DecidableEq, Repr

/-- Class and rank of a candidate. -/
structure Candidacy where
  cls : Nat
  rank : Nat
  deriving DecidableEq, Repr

/-- The timebase unit, rack time apart. -/
structure Timebase where
  /-- The number of the most recent beat to have fallen due (R25, R79). -/
  beat : Beat
  /-- The beat exponent in force (R79). -/
  beatExp : Nat
  state : TimebaseState
  /-- Trim k, pull j and saved trim k_s (R62). -/
  trim : Int
  pull : Int
  savedTrim : Int
  /-- REFIN activity, the cycle of its last rising edge, and its FAILED mark (R63, R66). -/
  refinActive : Bool
  refinLastEdge : Nat
  refinFailed : Bool
  /-- Port candidacies and port FAILED marks (R64, R66). -/
  candidates : Vector (Option Candidacy) 12
  failed : Vector Bool 12
  selected : Option Source
  /-- Edges or slots counted towards the next comparison edge (R63, R64, R69). -/
  edges : Nat
  /-- The expected edge time; `none` marks the next comparison as the first (R69, R71). -/
  expected : Option Stamp
  comparisons : Nat
  inWindow : Nat
  excursions : Nat
  /-- The cycle at which the edge-absence timer last restarted (R73). -/
  edgeSince : Nat
  holdoverBeats : Nat
  locks : Count
  unlocks : Count
  acquisitionFailures : Count
  holdoverExpiries : Count
  deriving DecidableEq, Repr

/-! ### Setup store and working settings -/

/-- The working settings (Table 25); the pin settings stand in the pins. -/
structure Settings where
  rackIdentity : BitVec 32
  enable : Vector Bool 12
  frameWrite : Bool
  echoExp : Nat
  promptCount : Nat
  gate : Nat
  slew : Nat
  orphanHold : Nat
  drainLimit : Nat
  holdLimit : Nat
  joinLimit : Nat
  holdoverLimit : Nat
  refinEnable : Bool
  refinClass : Nat
  localTrim : Int
  ranked : Vector Bool 12
  defaultLatency : Nat
  defaultHoldoff : Nat
  asymmetry : Vector Int 12
  deriving DecidableEq, Repr

/-- A setup operation in progress: `word` is `none` for a clear (R168, R169). -/
structure SetupOperation where
  write : Option (Fin 24 × BitVec 32)
  origin : Origin
  completes : Stamp
  deriving DecidableEq, Repr

structure Setup where
  words : Vector (BitVec 32) 24
  operation : Option SetupOperation
  deriving DecidableEq, Repr

/-! ### The whole hub -/

/-- The state of the KH2212. -/
structure State where
  clock : Clock
  ports : Vector Port 12
  /-- The drain set of each LEAVING port (R32). -/
  drainSets : Vector (List StreamIx) 12
  delays : Vector Delay 12
  egress : Vector Egress 12
  triggers : Vector TriggerQueue 12
  /-- What each port origin holds; `none` while it holds no queue (R154). -/
  origins : Vector (Option OriginState) 12
  service : Service
  /-- The stream records; `none` is FREE (R83). -/
  streams : Vector (Option Stream) 64
  store : Store
  taps : Vector (Option Tap) 128
  lines : Vector Line 32
  pins : Vector Pin 4
  tb : Timebase
  settings : Settings
  setup : Setup
  /-- RESETN is low: every block is at rest (R171). -/
  atRest : Bool
  /-- Between the taking and the completion of a hub restart (R172). -/
  restarting : Bool
  /-- MODEL'S OWN: what the event in progress has posted; empty between events. -/
  posts : List Post
  /-- MODEL'S OWN: how many free values have been read. -/
  freeReads : Nat
  /-- MODEL'S OWN: the commands that wait, first in, first out. -/
  pending : List Instr
  deriving DecidableEq, Repr

/-! ### Values at power-on -/

def PortCounters.zero : PortCounters := ⟨0, 0, 0, 0, 0, 0, 0, 0, 0, 0⟩
def StreamCounters.zero : StreamCounters := ⟨0, 0, 0, 0, 0, 0⟩
def PinCounters.zero : PinCounters := ⟨0, 0, 0, 0, 0⟩

/-- A port controller at power-on (R44); its filtered presence takes the pin's level (R18). -/
def Port.initial (presence : Bool) : Port where
  state := .vacant
  presence := presence
  pin := presence
  pinSince := 0
  fillRun := 0
  failures := 0
  held := false
  holdBeats := 0
  missRun := 0
  frame := none
  epoch := none
  joinDeadline := none
  score := 0
  silenceSince := 0
  lastReceived := 0
  framer := ⟨.outside, []⟩
  counters := PortCounters.zero

/-- An empty delay record (R60). -/
def Delay.initial : Delay := ⟨0, none, none, none, none⟩

/-- A free transmitter and the rotation pointer of R137. -/
def Egress.initial : Egress := ⟨none, 0, none, 127⟩

/-- An empty trigger queue (R153). -/
def TriggerQueue.initial : TriggerQueue := ⟨[], false⟩

/-- An origin with an empty slot and an empty queue (R154). -/
def OriginState.initial : OriginState := ⟨none, [], 0, false⟩

/-- The service port at power-on (R165). -/
def Service.initial : Service := ⟨.initial, 0, .idle⟩

/-- The store at power-on (R118). -/
def Store.initial : Store := ⟨List.range 1024, 1024, 0, 0⟩

/-- A line with a latency and a holdoff, otherwise as R153 starts it. -/
def Line.initial (latency holdoff : Nat) : Line :=
  ⟨latency, holdoff, Vector.replicate 12 false, none, 0, 0, 0, 0⟩

/-- A pin with its settings and the level sampled on its wire, otherwise as R153 starts it. -/
def Pin.initial (mode : PinMode) (polarity : Nat) (line : LineIx) (width : Nat) (wire : Bool) : Pin :=
  ⟨mode, polarity, line, width, wire, wire, [], none, PinCounters.zero⟩

/-- The timebase at power-on (R82): FREE at the local trim, beat 0 due. -/
def Timebase.initial (beatExp : Nat) (localTrim : Int) : Timebase where
  beat := 0
  beatExp := beatExp
  state := .free
  trim := localTrim
  pull := 0
  savedTrim := localTrim
  refinActive := false
  refinLastEdge := 0
  refinFailed := false
  candidates := Vector.replicate 12 none
  failed := Vector.replicate 12 false
  selected := none
  edges := 0
  expected := none
  comparisons := 0
  inWindow := 0
  excursions := 0
  edgeSince := 0
  holdoverBeats := 0
  locks := 0
  unlocks := 0
  acquisitionFailures := 0
  holdoverExpiries := 0

/-- The working settings that an erased store gives (Table 25). -/
def Settings.erased : Settings where
  rackIdentity := 0xFFFFFFFF
  enable := Vector.replicate 12 true
  frameWrite := false
  echoExp := 6
  promptCount := 16
  gate := 512
  slew := 8
  orphanHold := 64
  drainLimit := 16
  holdLimit := 2
  joinLimit := 64
  holdoverLimit := 4096
  refinEnable := false
  refinClass := 0
  localTrim := 0
  ranked := Vector.replicate 12 false
  defaultLatency := 1024
  defaultHoldoff := 0
  asymmetry := Vector.replicate 12 0

/-- The KH2212 right after power-on (R171) with an erased setup store, no cable seated and every
trigger wire low (notes/assumptions/1.md): every block in its power-on state, every port VACANT. -/
def State.reset : State where
  clock := ⟨0, 0, 0, 0, 16777216⟩
  ports := Vector.replicate 12 (Port.initial false)
  drainSets := Vector.replicate 12 []
  delays := Vector.replicate 12 .initial
  egress := Vector.replicate 12 .initial
  triggers := Vector.replicate 12 .initial
  origins := Vector.replicate 12 none
  service := .initial
  streams := Vector.replicate 64 none
  store := .initial
  taps := Vector.replicate 128 none
  lines := Vector.replicate 32 (.initial 1024 0)
  pins := Vector.replicate 4 (.initial .off 0 0 16 false)
  tb := .initial 13 0
  settings := .erased
  setup := ⟨Vector.replicate 24 0xFFFFFFFF, none⟩
  atRest := false
  restarting := false
  posts := []
  freeReads := 0
  pending := []

end Sys2Proof.Machine
end

