-- ==== Sys2Proof/Machine/Operands.lean ====
section
/-! DEFINITION. Byte order, the check, the frame of a parcel, and the fields that commands carry in bytes
(R2, R3, R9, R173, R174, R176). -/

namespace Sys2Proof.Machine

/-! ### Byte order (R173) -/

/-- `x` in `n` bytes, high byte first. -/
def be : Nat → Nat → List Byte
  | 0, _ => []
  | n + 1, x => BitVec.ofNat 8 (x / 256 ^ n) :: be n x

/-- The number that bytes spell, high byte first. -/
def beNat (bytes : List Byte) : Nat := bytes.foldl (fun acc b => acc * 256 + b.toNat) 0

/-- A signed number in `n` bytes, two's complement. -/
def beInt (n : Nat) (x : Int) : List Byte := be n (BitVec.ofInt (8 * n) x).toNat

/-- The field of `n` bytes at offset `at`. -/
def field (args : List Byte) (off n : Nat) : Nat := beNat ((args.drop off).take n)

/-- One bit as a number, for packed bytes. -/
def bit (b : Bool) (i : Nat) : Nat := if b then 2 ^ i else 0

/-- The bits `lo` to `lo + n - 1` of `x`. -/
def bits (x lo n : Nat) : Nat := x / 2 ^ lo % 2 ^ n

/-- A field of `n` bits read as two's complement. -/
def signedBits (x lo n : Nat) : Int := (BitVec.ofNat n (bits x lo n)).toInt

/-- Bits 0.. of a mask, one for each entry of a list. -/
def maskOf (flags : List Bool) : Nat := flags.foldr (fun b acc => 2 * acc + bit b 0) 0

/-! ### The check and the frame (R2, R3) -/

/-- One bit entering the check register: generator x^16 + x^12 + x^5 + 1. -/
def crcBit (r : BitVec 16) (b : Bool) : BitVec 16 :=
  if r.getLsbD 15 != b then (r <<< 1) ^^^ 0x1021 else r <<< 1

/-- The bits of one byte enter most significant bit first. -/
def crcByte (r : BitVec 16) (x : Byte) : BitVec 16 :=
  [7, 6, 5, 4, 3, 2, 1, 0].foldl (fun r i => crcBit r (x.getLsbD i)) r

/-- The check over the bytes from the kind to the last payload byte (R3). -/
def crc16 (bytes : List Byte) : BitVec 16 := bytes.foldl crcByte 0xFFFF

/-- A parcel as its bytes: kind, length, body (header and payload), check (Table 7). -/
def parcel (kind : Byte) (body : List Byte) : List Byte :=
  let checked := kind :: (be 2 body.length ++ body)
  checked ++ be 2 (crc16 checked).toNat

/-- Whether the last two collected bytes are the check of the others (R5). -/
def checkPasses (bytes : List Byte) : Bool :=
  let n := bytes.length - 2
  beNat (bytes.drop n) == (crc16 (bytes.take n)).toNat

/-! ### Kinds (Table 27) -/

def kindBeat : Byte := 0x11
def kindEcho : Byte := 0x12
def kindEchoBack : Byte := 0x13
def kindSamples : Byte := 0x21
def kindTrigger : Byte := 0x31
def kindOrder : Byte := 0x41
def kindReply : Byte := 0x42
def kindNotice : Byte := 0x43

/-- A parcel from a frame as ingress dispatch hands it on (R10). -/
inductive Inbound where
  | echoBack (number : Byte) (h : BitVec 24)
  | samples (tag : Byte) (sequence count : BitVec 16) (stamp : Stamp) (payload : List Byte)
  | trigger (line : Byte) (stamp : Stamp)
  | order (ident code : Byte) (args : List Byte)
  /-- A kind that only the hub sends. -/
  | hubOnly
  deriving DecidableEq, Repr

/-- The body of a parcel of a given kind, or `none` where the kind is not defined or the length is out
of the kind's range in the frame-to-hub direction (R9, Tables 27 and 28). A kind that only the hub
sends has no range in that direction, so none is tested (notes/assumptions/9.md). -/
def Inbound.ofBody (kind : Byte) (body : List Byte) : Option Inbound :=
  if kind = kindEchoBack then
    if body.length = 4 then some (.echoBack (BitVec.ofNat 8 (field body 0 1)) (BitVec.ofNat 24 (field body 1 3)))
    else none
  else if kind = kindSamples then
    if 13 ≤ body.length ∧ body.length ≤ 269 then
      some (.samples (BitVec.ofNat 8 (field body 0 1)) (BitVec.ofNat 16 (field body 1 2))
        (BitVec.ofNat 16 (field body 3 2)) (BitVec.ofNat 64 (field body 5 8)) (body.drop 13))
    else none
  else if kind = kindTrigger then
    if body.length = 9 then some (.trigger (BitVec.ofNat 8 (field body 0 1)) (BitVec.ofNat 64 (field body 1 8)))
    else none
  else if kind = kindOrder then
    if 2 ≤ body.length ∧ body.length ≤ 34 then
      some (.order (BitVec.ofNat 8 (field body 0 1)) (BitVec.ofNat 8 (field body 1 1)) (body.drop 2))
    else none
  else if kind = kindBeat ∨ kind = kindEcho ∨ kind = kindReply ∨ kind = kindNotice then some .hubOnly
  else none

/-- The three dispatch checks on an arrived parcel, in order (R9); `none` is malformed. -/
def Inbound.ofBytes (bytes : List Byte) : Option Inbound :=
  let body := (bytes.drop 3).take (bytes.length - 5)
  if field bytes 1 2 = bytes.length - 5 then Inbound.ofBody (bytes.headD 0) body else none

/-- Whether a parcel given by its fields has a length in its kind's range (R9). -/
def Inbound.inRange : Inbound → Bool
  | .samples _ _ _ _ payload => payload.length ≤ 256
  | .order _ _ args => args.length ≤ 32
  | _ => true

/-! ### Order codes (Table 29) -/

/-- The orders of Table 24. -/
inductive OrderCode where
  | join | detach | resetLink | readLink | proposeReference | withdrawReference | readTimebase
  | openStream | closeStream | findStream | readStream | addTap | alterTap | dropTap | setLine
  | subscribeLine | unsubscribeLine | readLine | setPin | readPin | readStore | setParam
  | setupRead | setupWrite | setupClear | restartHub
  deriving DecidableEq, Repr

/-- The code of each order. -/
def OrderCode.byte : OrderCode → Byte
  | .join => 0x01 | .detach => 0x02 | .resetLink => 0x03 | .readLink => 0x04
  | .proposeReference => 0x05 | .withdrawReference => 0x06 | .readTimebase => 0x07
  | .openStream => 0x08 | .closeStream => 0x09 | .findStream => 0x0A | .readStream => 0x0B
  | .addTap => 0x0C | .alterTap => 0x0D | .dropTap => 0x0E | .setLine => 0x0F
  | .subscribeLine => 0x10 | .unsubscribeLine => 0x11 | .readLine => 0x12 | .setPin => 0x13
  | .readPin => 0x14 | .readStore => 0x15 | .setParam => 0x16 | .setupRead => 0x17
  | .setupWrite => 0x18 | .setupClear => 0x19 | .restartHub => 0x1A

/-- Every order, in the order of Table 29. -/
def OrderCode.all : List OrderCode :=
  [.join, .detach, .resetLink, .readLink, .proposeReference, .withdrawReference, .readTimebase,
   .openStream, .closeStream, .findStream, .readStream, .addTap, .alterTap, .dropTap, .setLine,
   .subscribeLine, .unsubscribeLine, .readLine, .setPin, .readPin, .readStore, .setParam,
   .setupRead, .setupWrite, .setupClear, .restartHub]

/-- The order that a code names, if any. -/
def OrderCode.ofByte (b : Byte) : Option OrderCode := OrderCode.all.find? (fun c => c.byte == b)

/-! ### Indices carried in bytes -/

/-- A number as an index of `n`, if it is one. -/
def index? (n x : Nat) : Option (Fin n) := if h : x < n then some ⟨x, h⟩ else none

def port? (x : Nat) : Option PortIx := index? 12 x
def stream? (x : Nat) : Option StreamIx := index? 64 x
def line? (x : Nat) : Option LineIx := index? 32 x
def pin? (x : Nat) : Option PinIx := index? 4 x

/-- A decimation is 1, 2, 4, 8 or 16 (R120). -/
def decimation? (x : Nat) : Option Nat := if x ∈ [1, 2, 4, 8, 16] then some x else none

/-- A byte order code: 0 AS-IS, 1 REVERSED (Table 29). -/
def byteOrder? (x : Nat) : Option Bool := if x = 0 then some false else if x = 1 then some true else none

/-- The window, decimation, byte order and lag limit of ADD TAP and ALTER TAP, from the present-flags
byte on (Table 29); `none` where R120 and R128 refuse BAD_ARG. -/
def tapSettings? (args : List Byte) (off : Nat) : Option TapSettings :=
  let flags := field args off 1
  let opens := if flags % 2 = 1 then some (BitVec.ofNat 64 (field args (off + 1) 8)) else none
  let closes := if flags / 2 % 2 = 1 then some (BitVec.ofNat 64 (field args (off + 9) 8)) else none
  let ordered : Bool := match opens, closes with
    | some a, some b => decide (a.toNat < b.toNat)
    | _, _ => true
  match decimation? (field args (off + 17) 1), byteOrder? (field args (off + 18) 1) with
  | some n, some r => if ordered then some ⟨opens, closes, n, r, field args (off + 19) 2⟩ else none
  | _, _ => none

end Sys2Proof.Machine
end

