-- ==== Sys2Proof/Machine/Flags.lean ====
section
/-! DEFINITION. The codes of states, results, notices and causes, and the packed flag bytes of parcels
(R174, R176, R177). -/

namespace Sys2Proof.Machine

/-- Port states are coded VACANT 0 to FAULTED 8 (Figure 4, R176). -/
def PortState.code : PortState → Nat
  | .vacant => 0 | .listening => 1 | .training => 2 | .joining => 3 | .admitted => 4
  | .active => 5 | .leaving => 6 | .parked => 7 | .faulted => 8

/-- The states in which the receive framer runs (R4). -/
def PortState.framerRuns : PortState → Bool
  | .training | .joining | .admitted | .active | .leaving => true
  | _ => false

/-- The states in which the transmitter is silent (R1). -/
def PortState.isSilent : PortState → Bool
  | .vacant | .faulted => true
  | _ => false

/-- Result codes (Table 31). -/
def ResultCode.byte : ResultCode → Byte
  | .done => 0x00 | .busy => 0x01 | .unknown => 0x02 | .badArg => 0x03 | .notActive => 0x04
  | .notOwner => 0x05 | .notFound => 0x06 | .noRoom => 0x07 | .conflict => 0x08
  | .isProtected => 0x09 | .notPermitted => 0x0A | .aborted => 0x0B

/-- Notice codes (Table 33). -/
def NoticeKind.byte : NoticeKind → Byte
  | .ease => 0x01 | .resume => 0x02 | .tapShed => 0x03 | .tapEnded => 0x04
  | .streamOrphaned => 0x05 | .streamResumed => 0x06 | .streamEnded => 0x07 | .adopted => 0x08
  | .farewell => 0x09 | .referenceRole => 0x0A | .portEvent => 0x0B | .timebaseEvent => 0x0C

/-- The order of the notice kinds in Table 23, from 1 on. -/
def NoticeKind.rank : NoticeKind → Nat
  | .portEvent => 1 | .timebaseEvent => 2 | .referenceRole => 3 | .adopted => 4
  | .streamOrphaned => 5 | .streamResumed => 6 | .streamEnded => 7 | .tapEnded => 8
  | .tapShed => 9 | .ease | .resume => 10 | .farewell => 11

/-- Whether an item is one that the steps of a drain's end post (R98, R99). -/
def PostItem.isOfDrain : PostItem → Bool
  | .drainReply | .notice .streamEnded _ => true
  | _ => false

/-- The place of a posted item in the order of R158, among all that its event posts: the reply first, then the notices in the
order of their kinds in Table 23. A drain's DONE follows the STREAM ENDED of its drain, the steps of R98 and R99, where
those steps post all that the origin is sent; otherwise no rule orders the whole by its steps and the DONE is first, as
every reply (notes/assumptions/14.md). -/
def Post.rank (posts : List Post) (x : Post) : Nat :=
  match x.item with
  | .reply => 0
  | .drainReply =>
    if posts.all (fun y => y.dest != x.dest || y.item.isOfDrain) then NoticeKind.rank .streamEnded else 0
  | .notice k _ => k.rank

/-- PORT EVENT causes (Table 11), numbered 1..16 (R177). -/
inductive PortCause where
  | presence | enable | fillRun | trained | trainFail | joined | joinLimit | epoch | detach
  | farewell | score | silence | echo | reset | disable | fault
  deriving DecidableEq, Repr

def PortCause.code : PortCause → Nat
  | .presence => 1 | .enable => 2 | .fillRun => 3 | .trained => 4 | .trainFail => 5 | .joined => 6
  | .joinLimit => 7 | .epoch => 8 | .detach => 9 | .farewell => 10 | .score => 11 | .silence => 12
  | .echo => 13 | .reset => 14 | .disable => 15 | .fault => 16

/-- TIMEBASE EVENT causes (Table 15), numbered 1..8 (R177). -/
inductive TimebaseCause where
  | select | switch | lock | phase | noEdge | lost | acqFail | expired
  deriving DecidableEq, Repr

def TimebaseCause.code : TimebaseCause → Nat
  | .select => 1 | .switch => 2 | .lock => 3 | .phase => 4 | .noEdge => 5 | .lost => 6
  | .acqFail => 7 | .expired => 8

/-- Timebase state codes (R174). -/
def TimebaseState.code : TimebaseState → Nat
  | .free => 0 | .acquiring => 1 | .locked => 2 | .holdover => 3

/-- Reference source codes: 0..11 a port, 14 REFIN, 15 none (R174). -/
def sourceCode : Option Source → Nat
  | some (.port p) => p.val
  | some .refin => 14
  | none => 15

/-- Stream state codes, FREE 0 (R176). -/
def StreamState.code : StreamState → Nat
  | .opening => 1 | .flowing => 2 | .draining => 3 | .orphaned => 4

/-- Origin codes of READ STREAM: 0..11 a port, 12 S, 15 none (Table 32). -/
def originCode : Option Origin → Nat
  | some (.port p) => p.val
  | some .service => 12
  | none => 15

/-- Pin mode codes (Table 29). -/
def PinMode.code : PinMode → Nat
  | .off => 0 | .input => 1 | .output => 2

def pinMode? (x : Nat) : Option PinMode :=
  if x = 0 then some .off else if x = 1 then some .input else if x = 2 then some .output else none

/-- Whether a polarity code is valid for a mode (R148): IN 0..2, OUT 0..1. The spec names none for OFF;
any defined code 0..2 is taken and held (notes/assumptions/10.md). -/
def PinMode.admits : PinMode → Nat → Bool
  | .output, x => x ≤ 1
  | _, x => x ≤ 2

/-- Flags of an outbound SAMPLES parcel (R174). -/
def samplesFlags (gap slip resumed swapped : Bool) : Nat :=
  bit gap 0 + bit slip 1 + bit resumed 2 + bit swapped 3

/-- Flags of an outbound TRIGGER parcel (R174). -/
def triggerFlags (late clamped overrun : Bool) : Nat := bit late 0 + bit clamped 1 + bit overrun 2

/-- An entry of a notice/reply queue in parcel form (Table 28). -/
def Entry.bytes : Entry → List Byte
  | .reply _ ident code result bytes => parcel kindReply (ident :: code :: result.byte :: bytes)
  | .notice kind lost fields => parcel kindNotice (kind.byte :: lost :: fields)

def Entry.isReply : Entry → Bool
  | .reply .. => true
  | .notice .. => false

def Entry.isOwnReply : Entry → Bool
  | .reply own .. => own
  | .notice .. => false

def Entry.isFarewell : Entry → Bool
  | .notice .farewell _ _ => true
  | _ => false

end Sys2Proof.Machine
end

