-- ==== Sys2Proof/Machine/Ops.lean ====
section
/-! DEFINITION. The named operations over the state that every block uses: time, updates of one record,
posting and placing replies and notices, answering orders. -/

namespace Sys2Proof.Machine

/-! ### All instances of a block -/

def allPorts : List PortIx := List.finRange 12
def allStreams : List StreamIx := List.finRange 64
def allTaps : List TapIx := List.finRange 128
def allPins : List PinIx := List.finRange 4

/-- `f` applied for each index in turn. -/
def each {α : Type} (is : List α) (f : α → State → State) (s : State) : State := is.foldl (fun s i => f i s) s

/-! ### Time (R61) -/

/-- k + j clamped into −2047..+2047. -/
def State.rate (s : State) : Int := clampInt (s.tb.trim + s.tb.pull) (-2047) 2047

/-- What a cycle that starts now adds, in 1/65536 sub-tick. -/
def State.nextIncrement (s : State) : Nat := (16777216 + s.rate).toNat

/-- Whole sub-ticks by which the next cycle's rack time exceeds this one's. -/
def State.cycleLength (s : State) : Nat := (s.clock.residue.toNat + s.clock.increment) / 65536

/-- The rack time of the event in progress. -/
def State.now (s : State) : Stamp := s.clock.rackTime + BitVec.ofNat 64 s.clock.elapsed

/-- Whole sub-ticks elapsed at fraction `f` of the cycle in progress: the fraction of the cycle's own
increment rounded down, kept below the next cycle (R61; notes/assumptions/5.md). -/
def State.elapsedAt (s : State) (f : Fraction) : Nat :=
  min (s.clock.increment * f.toNat / 4294967296) (s.cycleLength - 1)

/-- The event falls at fraction `f` of the cycle in progress, or at the last event's time if that is
later: a later event never has a smaller rack time (R61). -/
def at_ (f : Fraction) (s : State) : State :=
  { s with clock := { s.clock with elapsed := max s.clock.elapsed (s.elapsedAt f) } }

/-- The fraction at which a symbol slot of the cycle begins. R1 and R6 give two slots a tick; that the first begins with the
cycle and the second at half of it is the model's choice (DESIGN CHOICE, notes/assumptions/22.md). -/
def slotFraction (second : Bool) : Fraction := if second then 0x8000 else 0

/-- The symbol slot of the present boundary, counted from power-on. -/
def State.slotNumber (s : State) (second : Bool) : Nat := 2 * s.clock.cycle + (if second then 1 else 0)

/-- Rack time has reached `due`: the difference of two stamps read as a signed value
(spec/00_scope.md, "Arithmetic words"). -/
def reached (now due : Stamp) : Bool := (now - due).toNat < 2 ^ 63

/-! ### Updates of one record -/

def modPort (p : PortIx) (f : Port → Port) (s : State) : State :=
  { s with ports := s.ports.set p (f s.ports[p]) }

def modDelay (p : PortIx) (f : Delay → Delay) (s : State) : State :=
  { s with delays := s.delays.set p (f s.delays[p]) }

def modEgress (p : PortIx) (f : Egress → Egress) (s : State) : State :=
  { s with egress := s.egress.set p (f s.egress[p]) }

def modTriggers (p : PortIx) (f : TriggerQueue → TriggerQueue) (s : State) : State :=
  { s with triggers := s.triggers.set p (f s.triggers[p]) }

def setDrainSet (p : PortIx) (l : List StreamIx) (s : State) : State :=
  { s with drainSets := s.drainSets.set p l }

def modStream (st : StreamIx) (f : Stream → Stream) (s : State) : State :=
  { s with streams := s.streams.set st (s.streams[st].map f) }

def modTap (t : TapIx) (f : Tap → Tap) (s : State) : State :=
  { s with taps := s.taps.set t (s.taps[t].map f) }

def modLine (l : LineIx) (f : Line → Line) (s : State) : State :=
  { s with lines := s.lines.set l (f s.lines[l]) }

def modPin (i : PinIx) (f : Pin → Pin) (s : State) : State :=
  { s with pins := s.pins.set i (f s.pins[i]) }

def modTb (f : Timebase → Timebase) (s : State) : State := { s with tb := f s.tb }

def modStore (f : Store → Store) (s : State) : State := { s with store := f s.store }

def modService (f : Service → Service) (s : State) : State := { s with service := f s.service }

def modSettings (f : Settings → Settings) (s : State) : State := { s with settings := f s.settings }

/-- Raise counters of a port (R42). -/
def countPort (p : PortIx) (f : PortCounters → PortCounters) : State → State :=
  modPort p (fun x => { x with counters := f x.counters })

def countStray (p : PortIx) : State → State := countPort p (fun c => { c with stray := satAdd c.stray 1 })

def countMalformed (p : PortIx) : State → State :=
  countPort p (fun c => { c with malformed := satAdd c.malformed 1 })

/-- The discard count of the service port (R162). -/
def countDiscard : State → State := modService (fun v => { v with discards := satInc8 v.discards })

/-! ### Origins (R154) -/

/-- What an origin holds; `none` for a port origin without a queue. -/
def State.origin (s : State) : Origin → Option OriginState
  | .port p => s.origins[p]
  | .service => some s.service.origin

/-- Update an origin that holds a queue. -/
def modOrigin (o : Origin) (f : OriginState → OriginState) (s : State) : State :=
  match o with
  | .port p => { s with origins := s.origins.set p (s.origins[p].map f) }
  | .service => modService (fun v => { v with origin := f v.origin }) s

def OriginState.notices (q : OriginState) : Nat := q.queue.countP (fun e => !e.isReply)

def OriginState.hasReply (q : OriginState) : Bool := q.queue.any Entry.isReply

/-- ATTN is asserted while S's queue holds at least one entry, and deasserted at rest (R164, R171). -/
def State.attn (s : State) : Bool := !s.atRest && !s.service.origin.queue.isEmpty

/-! ### Posting (R158, R159) -/

/-- An event posts an item; it is placed at the event's end (`flush`). -/
def post (o : Origin) (item : PostItem) (s : State) : State := { s with posts := s.posts ++ [⟨o, item⟩] }

def postNotice (o : Origin) (k : NoticeKind) (fields : List Byte) : State → State := post o (.notice k fields)

/-- A notice is placed at the tail with the lost tally, or discarded: without a queue nothing happens
(R154), with the closed mark it is not counted, with 7 notices in the queue the tally rises (R159). -/
def OriginState.placeNotice (k : NoticeKind) (fields : List Byte) (q : OriginState) : OriginState :=
  if q.closed then q
  else if q.notices < Config.noticePlaces then
    { q with queue := q.queue ++ [.notice k q.lost fields], lost := 0 }
  else { q with lost := satInc8 q.lost }

/-- The reply of an ANSWERED order joins the queue if the queue holds no REPLY; otherwise it stays in
the slot (R156). -/
def OriginState.placeReply (q : OriginState) : OriginState :=
  match q.slot with
  | some ⟨ident, code, some (result, bytes)⟩ =>
    if q.hasReply then q else { q with queue := q.queue ++ [.reply true ident code result bytes] }
  | _ => q

/-- Place one posted item. -/
def place (x : Post) : State → State :=
  match x.item with
  | .reply | .drainReply => modOrigin x.dest .placeReply
  | .notice k fields => modOrigin x.dest (.placeNotice k fields)

/-- Place what the event posted, in the order of R158. Within hub restart nothing is posted (R82, R105,
R118, R172; notes/assumptions/8.md). -/
def flush (s : State) : State :=
  let posts := if s.restarting then [] else s.posts
  each ((List.range 12).flatMap (fun k => posts.filter (fun x => x.rank posts == k))) place { s with posts := [] }

/-! ### Answering (R155, R156, R161) -/

/-- Give the RUNNING order of an origin its result: the slot becomes ANSWERED and its reply is posted.
Where no order is RUNNING nothing is placed (R161). -/
def answerAs (item : PostItem) (o : Origin) (result : ResultCode) (bytes : List Byte) (s : State) : State :=
  match (s.origin o).bind (·.slot) with
  | some ⟨ident, code, none⟩ =>
    s |> modOrigin o (fun q => { q with slot := some ⟨ident, code, some (result, bytes)⟩ }) |> post o item
  | _ => s

/-- The immediate answer of an order. -/
def answer (o : Origin) (result : ResultCode) (bytes : List Byte) : State → State :=
  answerAs .reply o result bytes

/-- A refusal: no result bytes (R155). -/
def refuse (o : Origin) (result : ResultCode) : State → State := answer o result []

/-- An order occupies its origin's slot, RUNNING (R155). -/
def occupySlot (o : Origin) (ident code : Byte) : State → State :=
  modOrigin o (fun q => { q with slot := some ⟨ident, code, none⟩ })

/-- The head entry leaves the queue. A REPLY of the order in the slot empties the slot; a BUSY answer
frees the REPLY place, and a reply held in the slot is placed (R156, R157). -/
def OriginState.pop (q : OriginState) : OriginState :=
  match q.queue with
  | [] => q
  | e :: rest =>
    if e.isOwnReply then { q with queue := rest, slot := none }
    else if e.isReply then OriginState.placeReply { q with queue := rest }
    else { q with queue := rest }

end Sys2Proof.Machine
end

