-- ==== Sys2Proof/Machine/Store.lean ====
section
/-! DEFINITION. The sample store: blocks, the storage decision, releases, ease and resume
(spec/06_the_sample_store.md). -/

namespace Sys2Proof.Machine

/-- u, the number of blocks a stream holds (R107). -/
def Stream.u (r : Stream) : Nat := r.fifo.length

/-- What a record counts in the floor sum: max(u, 4), and nothing while FREE (R108). -/
def floorShare : Option Stream → Nat
  | some r => max r.u Config.floorBlocks
  | none => 0

/-- The floor sum (R108). -/
def State.floorSum (s : State) : Nat := (s.streams.toList.map floorShare).sum

/-- The number of streams that are not FREE (R117). -/
def State.streamsCounted (s : State) : Nat := s.streams.toList.countP (·.isSome)

/-- Blocks in all stream FIFOs. -/
def State.blocksStored (s : State) : Nat :=
  (s.streams.toList.map (fun r => (r.map Stream.u).getD 0)).sum

/-- One reference to block `b` falls in a FIFO; the flag says that its last one did and the block left,
from whatever position it held (R107, R115). -/
def dropReference (b : Nat) : List Block → List Block × Bool
  | [] => ([], false)
  | k :: ks =>
    if k.number = b then
      if k.refs ≤ 1 then (ks, true) else ({ k with refs := k.refs - 1 } :: ks, false)
    else
      let (rest, freed) := dropReference b ks
      (k :: rest, freed)

/-- A tap's reference to a block of a stream is released; a block whose count falls to 0 joins the tail
of the free list (R114, R115). -/
def releaseBlock (st : StreamIx) (b : Nat) (s : State) : State :=
  match s.streams[st] with
  | none => s
  | some r =>
    let (fifo, freed) := dropReference b r.fifo
    { s with
      streams := s.streams.set st (some { r with fifo := fifo })
      store := if freed then { s.store with free := s.store.free ++ [b] } else s.store }

/-- Every reference of a list is released, the oldest first. R115 does not say in which order blocks freed by one event join
the free list; tap by tap, oldest pending first, is the model's choice, which nothing outside can observe (R106; DESIGN
CHOICE, notes/assumptions/23.md). -/
def releaseBlocks (st : StreamIx) (bs : List Nat) (s : State) : State :=
  each bs (releaseBlock st) s

/-- Whether a parcel may be stored for a stream (R109). -/
def State.mayStore (s : State) (r : Stream) : Bool :=
  r.u < r.depth && (r.u < Config.floorBlocks || s.floorSum < Config.blocks)

/-- A stored parcel takes the head of the free list and joins the FIFO's tail; `refs` taps select it
(R106, R110). The low-water mark follows the free count (R117). -/
def storeBlock (st : StreamIx) (r : Stream) (b : Nat) (rest : List Nat) (sequence count : BitVec 16) (stamp : Stamp)
    (payload : List Byte) (slip : Bool) (refs : Nat) (s : State) : State :=
  let block : Block := ⟨b, sequence, count, stamp, payload, slip, r.resumeMark, refs⟩
  { s with
    streams := s.streams.set st (some { r with fifo := r.fifo ++ [block], resumeMark := false })
    store := { s.store with free := rest, lowWater := min s.store.lowWater rest.length } }

/-- A dropped parcel raises the stream's dropped counter and one store-wide drop counter (R111). -/
def dropParcel (st : StreamIx) (r : Stream) (s : State) : State :=
  let counters := { r.counters with dropped := satAdd r.counters.dropped 1 }
  { s with
    streams := s.streams.set st (some { r with counters := counters })
    store :=
      if r.depth ≤ r.u then { s.store with depthDrops := satAdd s.store.depthDrops 1 }
      else { s.store with floorDrops := satAdd s.store.floorDrops 1 } }

/-! ### Ease and resume (R116) -/

def Stream.easeLevel (r : Stream) : Nat := 3 * r.depth / 4
def Stream.resumeLevel (r : Stream) : Nat := r.depth / 2

/-- Fields of EASE and RESUME (Table 33). -/
def Stream.easeFields (st : StreamIx) (r : Stream) : List Byte :=
  be 1 st.val ++ r.tag :: (be 2 r.u ++ be 2 r.depth)

/-- A notice to the stream's producer; none is posted without a producer port (R83). -/
def postProducer (r : Stream) (k : NoticeKind) (fields : List Byte) (s : State) : State :=
  match r.producer with
  | some p => postNotice (.port p) k fields s
  | none => s

/-- The store judges a stream's ease state on the u the event leaves (R116). -/
def judgeEase (st : StreamIx) (s : State) : State :=
  match s.streams[st] with
  | none => s
  | some r =>
    if !r.eased && decide (r.easeLevel ≤ r.u) then
      s |> modStream st (fun r => { r with eased := true }) |> postProducer r .ease (r.easeFields st)
    else if r.eased && decide (r.u < r.resumeLevel) then
      s |> modStream st (fun r => { r with eased := false }) |> postProducer r .resume (r.easeFields st)
    else s

/-- The u of a stream, 0 while FREE. -/
def State.uOf (s : State) (st : StreamIx) : Nat := ((s.streams[st]).map Stream.u).getD 0

/-- Ease is judged at the end of each event that changes u (R116); `s0` is the state before the event. R116 gives no order
between streams; increasing stream number is the model's choice (DESIGN CHOICE, notes/assumptions/23.md). -/
def judgeAllEase (s0 s : State) : State :=
  each allStreams (fun st s => if s0.uOf st = s.uOf st then s else judgeEase st s) s

end Sys2Proof.Machine
end

