-- ==== Sys2Proof/Machine/Taps.lean ====
section
/-! DEFINITION. The tap pool: removal, selection at each arrival, sheds, staged alterations and the choice of
sample service (spec/07_taps_and_delivery.md). -/

namespace Sys2Proof.Machine

/-- The tap entered under a consumer tag in a port's consumer tag map (R119). -/
def State.tapOfTag (s : State) (p : PortIx) (tag : Byte) : Option TapIx :=
  allTaps.find? (fun t => match s.taps[t] with
    | some x => x.consumer == p && x.tag == tag
    | none => false)

/-- The taps whose consumer is a port. -/
def State.tapsOf (s : State) (p : PortIx) : List TapIx :=
  allTaps.filter (fun t => match s.taps[t] with
    | some x => x.consumer == p
    | none => false)

/-- A tap is removed: its pending references are released, its place on the tap list and its map entry go
with its record, its staged alteration is discarded. A block in flight stays held to its TAIL
(R114, R122, R130, R131). -/
def removeTap (t : TapIx) (s : State) : State :=
  match s.taps[t] with
  | none => s
  | some x =>
    let s := releaseBlocks x.stream x.pending s
    let s := modStream x.stream (fun r => { r with taps := r.taps.filter (· != t) }) s
    { s with taps := s.taps.set t none }

/-- A notice to the consumer of a tap, carrying the stream number and the consumer tag. -/
def postConsumer (t : TapIx) (k : NoticeKind) (s : State) : State :=
  match s.taps[t] with
  | none => s
  | some x => postNotice (.port x.consumer) k (be 1 x.stream.val ++ [x.tag]) s

/-- Fields of TAP ENDED (Table 33): cause 1 WINDOW, 2 DROPPED. -/
def Tap.endedFields (x : Tap) (cause : Nat) : List Byte :=
  x.tag :: (be 1 x.stream.val ++ be 1 cause ++ be 2 x.owed.toNat)

/-- A shed: every pending reference is released and counted as owed gap, the port's shed-events counter
rises, TAP SHED is posted with its cause, 1 LAG or 2 HOLD (R125, R127). -/
def shedTap (t : TapIx) (cause : Nat) (s : State) : State :=
  match s.taps[t] with
  | none => s
  | some x =>
    let n := x.pending.length
    let owed := satAdd x.owed n
    s |> releaseBlocks x.stream x.pending
      |> modTap t (fun x => { x with pending := [], owed := owed })
      |> countPort x.consumer (fun c => { c with shedEvents := satAdd c.shedEvents 1 })
      |> postNotice (.port x.consumer) .tapShed
          (x.tag :: (be 1 x.stream.val ++ be 1 cause ++ be 2 n ++ be 2 owed.toNat))

/-- Hold-limit expiry: every tap of the port with pending blocks is shed (R127). R127 and R29 give no order between the taps
of one port, which is that of their TAP SHED notices; increasing tap number is the model's choice (DESIGN CHOICE,
notes/assumptions/23.md). -/
def shedHeldPort (p : PortIx) (s : State) : State :=
  each (s.tapsOf p) (fun t s => match s.taps[t] with
    | some x => if x.pending.isEmpty then s else shedTap t 2 s
    | none => s) s

/-! ### Selection at each arrival -/

/-- What the stream table hands to the tap pool (R93). -/
structure Handed where
  stream : StreamIx
  sequence : BitVec 16
  gap : Nat
  stamp : Stamp
  count : BitVec 16
  payload : List Byte
  slip : Bool
  deriving DecidableEq, Repr

/-- Whether the arriving stamp closes a tap's window; the close is exclusive (R122). -/
def Tap.closes (x : Tap) (stamp : Stamp) : Bool :=
  match x.settings.windowClose with
  | some c => c.toNat ≤ stamp.toNat
  | none => false

/-- Whether a tap's window is open at a stamp (R123). -/
def Tap.isOpen (x : Tap) (stamp : Stamp) : Bool :=
  match x.settings.windowOpen with
  | some o => o.toNat ≤ stamp.toNat
  | none => true

/-- The missing numbers of a gap `g` that a decimation selects, counted from `first` (R124). -/
def gapCharge (first : BitVec 16) (g n phase : Nat) : Nat :=
  let r := (phase + n - first.toNat % n) % n
  if g ≤ r then 0 else (g - 1 - r) / n + 1

/-- The charge for a sequence gap (R124). -/
def Tap.charge (h : Handed) (x : Tap) : Tap :=
  match x.phase with
  | some phase =>
    if x.isOpen h.stamp then
      { x with owed := satAdd x.owed (gapCharge (h.sequence - BitVec.ofNat 16 h.gap) h.gap x.settings.decimation phase) }
    else x
  | none => x

/-- A tap without a phase takes it from the baseline parcel (R123). -/
def Tap.takePhase (sequence : BitVec 16) (x : Tap) : Tap :=
  match x.phase with
  | some _ => x
  | none => { x with phase := some (sequence.toNat % x.settings.decimation) }

/-- The selection test (R123). -/
def Tap.selects (h : Handed) (x : Tap) : Bool :=
  match x.phase with
  | some phase => x.isOpen h.stamp && (h.sequence.toNat + x.settings.decimation - phase) % x.settings.decimation == 0
  | none => false

/-- One tap meets the arriving parcel: window close, gap charge, selection, lag limit, in that order
(R122 to R125). The list gathers the taps that select. -/
def meetTap (h : Handed) (t : TapIx) (acc : State × List TapIx) : State × List TapIx :=
  let (s, selecting) := acc
  match s.taps[t] with
  | none => acc
  | some x =>
    if x.closes h.stamp then
      (s |> postNotice (.port x.consumer) .tapEnded (x.endedFields 1) |> removeTap t, selecting)
    else
      let x' := (x.charge h).takePhase h.sequence
      let s := modTap t (fun _ => x') s
      if x'.selects h then
        (if x'.settings.lag ≤ x'.pending.length then shedTap t 1 s else s, selecting ++ [t])
      else (s, selecting)

/-- The block joins the pending list of a selecting tap (R126). -/
def appendPending (b : Nat) (t : TapIx) : State → State :=
  modTap t (fun x => { x with pending := x.pending ++ [b] })

/-- A dropped parcel is charged to a selecting tap (R126). -/
def chargeDrop (t : TapIx) : State → State := modTap t (fun x => { x with owed := satAdd x.owed 1 })

/-- Selection, then the storage decision, then its outcome to the selecting taps (R109, R126). -/
def handOff (h : Handed) (s : State) : State :=
  match s.streams[h.stream] with
  | none => s
  | some r =>
    let (s, selecting) := r.taps.foldl (fun acc t => meetTap h t acc) (s, [])
    match s.streams[h.stream], selecting with
    | none, _ => s
    | some _, [] => s
    | some r, _ =>
      match s.mayStore r, s.store.free with
      | true, b :: rest =>
        s |> storeBlock h.stream r b rest h.sequence h.count h.stamp h.payload h.slip selecting.length
          |> each selecting (appendPending b)
      | _, _ => s |> dropParcel h.stream r |> each selecting chargeDrop

/-! ### Staged alterations (R129) -/

/-- A staged set takes effect: a lag limit of 0 is the depth limit; a changed decimation takes its phase
from the stream's expected sequence. -/
def applyStaged (t : TapIx) (s : State) : State :=
  match s.taps[t] with
  | none => s
  | some x =>
    match x.staged with
    | none => s
    | some n =>
      let stream := s.streams[x.stream]
      let depth := (stream.map (·.depth)).getD 0
      let phase := if n.decimation = x.settings.decimation then x.phase
        else (stream.bind (·.baseline)).map (fun b => b.expected.toNat % n.decimation)
      let lag := if n.lag = 0 then depth else n.lag
      modTap t (fun x => { x with settings := { n with lag := lag }, phase := phase, staged := none }) s

/-! ### Sample service (R135, R136) -/

/-- The eligible taps of a port: those with pending blocks. -/
def State.eligibleTaps (s : State) (p : PortIx) : List TapIx :=
  allTaps.filter (fun t => match s.taps[t] with
    | some x => x.consumer == p && !x.pending.isEmpty
    | none => false)

/-- The smallest tap number above the pointer, or else the smallest. -/
def afterPointer (pointer : Nat) (ts : List TapIx) : Option TapIx :=
  match ts.find? (fun t => pointer < t.val) with
  | some t => some t
  | none => ts.head?

/-- The priority of a tap's stream. -/
def State.priorityOf (s : State) (t : TapIx) : Nat :=
  match s.taps[t] with
  | some x => ((s.streams[x.stream]).map (·.priority)).getD 3
  | none => 3

/-- The tap that sample service chooses: in turn under ROTATE; under RANKED in turn among the taps of the
lowest priority value (R135, R136). -/
def State.chooseTap (s : State) (p : PortIx) : Option TapIx :=
  let ts := s.eligibleTaps p
  let ts := if s.settings.ranked[p] then
      let least := ts.foldl (fun m t => min m (s.priorityOf t)) 3
      ts.filter (fun t => s.priorityOf t == least)
    else ts
  afterPointer (s.egress[p]).rotation ts

end Sys2Proof.Machine
end

