-- ==== Sys2Proof/Machine/Streams.lean ====
section
/-! DEFINITION. The stream table: lookups, producer ingest, draining, orphans and re-adoption
(spec/05_streams.md). -/

namespace Sys2Proof.Machine

/-! ### Lookups (R84) -/

/-- A stream in OPENING or FLOWING. -/
def Stream.isLive (r : Stream) : Bool := r.state == .opening || r.state == .flowing

/-- The producer map: (producer port, producer tag) to a stream in OPENING or FLOWING. -/
def State.producerMap (s : State) (p : PortIx) (tag : Byte) : Option StreamIx :=
  allStreams.find? (fun st => match s.streams[st] with
    | some r => r.isLive && r.producer == some p && r.tag == tag
    | none => false)

/-- The identity lookup: (producer frame ID, producer tag) to a stream that is not FREE. -/
def State.identity (s : State) (frame : BitVec 32) (tag : Byte) : Option StreamIx :=
  allStreams.find? (fun st => match s.streams[st] with
    | some r => r.frameId == frame && r.tag == tag
    | none => false)

/-- The frame ID held by a port. -/
def State.frameId (s : State) (p : PortIx) : Option (BitVec 32) := (s.ports[p]).frame.map (·.id)

/-- Raise counters of a stream (R89). -/
def countStream (st : StreamIx) (f : StreamCounters → StreamCounters) : State → State :=
  modStream st (fun r => { r with counters := f r.counters })

/-! ### Producer ingest (R90 to R93) -/

/-- The form check (R90). -/
def Stream.malforms (r : Stream) (count : BitVec 16) (payload : List Byte) : Bool :=
  count.toNat == 0 || r.spp < count.toNat || payload.length != r.width * count.toNat

/-- The stamp that a stream's period predicts after a gap `g` (R92). -/
def Stream.predicted (r : Stream) (b : Baseline) (g : Nat) : Stamp :=
  b.stamp + BitVec.ofNat 64 ((b.count.toNat + g * r.spp) * r.period)

/-- SLIP: the deviation exceeds half a sample period, rounded down (R92). -/
def Stream.slips (r : Stream) (b : Baseline) (g : Nat) (stamp : Stamp) : Bool :=
  r.period / 2 < (stamp - r.predicted b g).toInt.natAbs

/-- A parcel passes the ingest checks: the baselines move on to it, accepted rises, and it is handed on
(R91, R92, R93). -/
def acceptParcel (h : Handed) (s : State) : State :=
  s |> modStream h.stream (fun r => { r with
        baseline := some ⟨h.sequence + 1, h.stamp, h.count⟩
        counters := { r.counters with
          accepted := satAdd r.counters.accepted 1
          slip := if h.slip then satAdd r.counters.slip 1 else r.counters.slip } })
    |> handOff h

/-- The sequence check and the stamp check (R91, R92). -/
def checkSequence (st : StreamIx) (r : Stream) (sequence count : BitVec 16) (stamp : Stamp) (payload : List Byte)
    (s : State) : State :=
  match r.baseline with
  | none => acceptParcel ⟨st, sequence, 0, stamp, count, payload, false⟩ s
  | some b =>
    let diff := (sequence - b.expected).toNat
    if 32768 ≤ diff then countStream st (fun c => { c with stale := satAdd c.stale 1 }) s
    else acceptParcel ⟨st, sequence, diff, stamp, count, payload, r.slips b diff stamp⟩ s

/-- An inbound SAMPLES parcel on an ACTIVE port (R90). -/
def takeSamples (p : PortIx) (tag : Byte) (sequence count : BitVec 16) (stamp : Stamp) (payload : List Byte)
    (s : State) : State :=
  match s.producerMap p tag with
  | some st =>
    match s.streams[st] with
    | none => s
    | some r =>
      if r.state = .opening then countStream st (fun c => { c with early := satAdd c.early 1 }) s
      else if r.malforms count payload then countMalformed p s
      else checkSequence st r sequence count stamp payload s
  | none =>
    match (s.frameId p).bind (fun id => s.identity id tag) with
    | some st =>
      if (s.streams[st]).map (·.state) = some .draining then
        countStream st (fun c => { c with late := satAdd c.late 1 }) s
      else countStray p s
    | none => countStray p s

/-! ### Draining (R96 to R99) -/

/-- Entry to DRAINING from OPENING, FLOWING or ORPHANED (R96). A stream already draining is not moved. -/
def enterDraining (st : StreamIx) (s : State) : State :=
  modStream st (fun r =>
    if r.state = .draining then r
    else { r with
      state := .draining, producer := none, orphanDeadline := none
      drainDeadline := some (s.tb.beat + BitVec.ofNat 32 s.settings.drainLimit) }) s

/-- The record is freed: it leaves the identity lookup and every drain set (R99). Only a record without
blocks is freed. -/
def freeStream (st : StreamIx) (s : State) : State :=
  if s.uOf st = 0 then
    { s with streams := s.streams.set st none } |>
      each allPorts (fun p s => setDrainSet p ((s.drainSets[p]).filter (· != st)) s)
  else s

/-- The end of a drain: every tap is removed, STREAM ENDED goes to each consumer in tap-list order, the close
order pending is answered DONE, the drain deadline is removed (R98, R99). `done` is how the DONE is placed (R158). -/
def endDrain (done : PostItem) (st : StreamIx) (s : State) : State :=
  match s.streams[st] with
  | none => s
  | some r =>
    let s := each r.taps (fun t s => s |> postConsumer t .streamEnded |> removeTap t) s
    let s := match r.closeBy with
      | some o => answerAs done o .done [] s
      | none => s
    modStream st (fun r => { r with closeBy := none, drainDeadline := none }) s

/-- A draining stream without blocks ends its drain, if that has not ended at its deadline, and is freed
(R98, R99). -/
def settleDrain (done : PostItem) (st : StreamIx) (s : State) : State :=
  match s.streams[st] with
  | none => s
  | some r =>
    if r.state = .draining ∧ r.fifo = [] then
      (if r.drainDeadline.isSome then endDrain done st s else s) |> freeStream st
    else s

/-- Whether a stream is DRAINING without blocks. -/
def State.isEmptied (s : State) (st : StreamIx) : Bool :=
  match s.streams[st] with
  | some r => r.state == .draining && r.fifo.isEmpty
  | none => false

/-- Whether the event has taken a port out of ACTIVE: it is then the event of a teardown, whose rule (R32, R34, R37) gives no
steps in order. -/
def State.tornDown (s0 s : State) : Bool :=
  allPorts.any (fun p => (s0.ports[p]).state == .active && (s.ports[p]).state != .active)

/-- Every stream that emptied in this event ends its drain in it (R98); `s0` is the state before the event. In the event of
a teardown the DONE of a close order is placed as every reply, first; otherwise by the steps of R98 (R158;
notes/assumptions/14.md). That several drains of one event end in increasing stream number, those that a beat ends at
their deadline before those that it empties, is the model's choice (DESIGN CHOICE, notes/assumptions/23.md). -/
def settleDrains (s0 s : State) : State :=
  let done : PostItem := if s0.tornDown s then .reply else .drainReply
  each allStreams (fun st s => if s0.isEmptied st then s else settleDrain done st s) s

/-- The drain deadline has expired (R99). In a beat this end comes before those of the streams that the beat empties
(DESIGN CHOICE, notes/assumptions/23.md). -/
def expireDrain (st : StreamIx) (s : State) : State :=
  match s.streams[st] with
  | none => s
  | some r => if r.state = .draining ∧ r.drainDeadline = some s.tb.beat then endDrain .drainReply st s else s

/-! ### Start, orphans, re-adoption (R87, R100 to R103) -/

/-- The start beat falls due (R87). -/
def startStream (st : StreamIx) (s : State) : State :=
  modStream st (fun r =>
    if r.state = .opening ∧ r.startBeat = s.tb.beat then { r with state := .flowing } else r) s

/-- The orphan hold has expired (R101). -/
def expireOrphan (st : StreamIx) (s : State) : State :=
  match s.streams[st] with
  | none => s
  | some r => if r.state = .orphaned ∧ r.orphanDeadline = some s.tb.beat then enterDraining st s else s

/-- A live stream of a lost port enters ORPHANED; its consumers are told (R100). -/
def orphanStream (st : StreamIx) (s : State) : State :=
  match s.streams[st] with
  | none => s
  | some r =>
    s |> modStream st (fun r => { r with
          state := .orphaned, producer := none
          orphanDeadline := some (s.tb.beat + BitVec.ofNat 32 s.settings.orphanHold) })
      |> each r.taps (fun t => postConsumer t .streamOrphaned)

/-- Whether a port produces a stream in OPENING or FLOWING. -/
def State.produces (s : State) (p : PortIx) (st : StreamIx) : Bool :=
  match s.streams[st] with
  | some r => r.isLive && r.producer == some p
  | none => false

/-- The streams a port produces drain, or wait as orphans (R32, R34, R37). R100 gives no order between the streams of one
port; increasing stream number is the model's choice (DESIGN CHOICE, notes/assumptions/23.md). -/
def leaveStreams (orphan : Bool) (p : PortIx) (s : State) : State :=
  each (allStreams.filter (s.produces p)) (if orphan then orphanStream else enterDraining) s

/-- One orphaned stream is re-adopted onto a port (R103). -/
def readoptStream (p : PortIx) (st : StreamIx) (s : State) : State :=
  match s.streams[st] with
  | none => s
  | some r =>
    s |> modStream st (fun r => { r with
          state := .flowing, producer := some p, orphanDeadline := none, baseline := none, resumeMark := true })
      |> each r.taps (fun t => postConsumer t .streamResumed)
      |> postNotice (.port p) .adopted (be 1 st.val ++ [r.tag])

/-- Whether a stream is an orphan of the frame on a port. -/
def State.isOrphanOf (s : State) (p : PortIx) (st : StreamIx) : Bool :=
  match s.streams[st] with
  | some r => r.state == .orphaned && s.frameId p == some r.frameId
  | none => false

/-- Every orphan of the entering frame, in increasing stream number (R103). -/
def readoptStreams (p : PortIx) (s : State) : State :=
  each (allStreams.filter (s.isOrphanOf p)) (readoptStream p) s

/-- The drain set of a port: the draining streams of its frame (R32). -/
def State.drainSetOf (s : State) (p : PortIx) : List StreamIx :=
  allStreams.filter (fun st => match s.streams[st] with
    | some r => r.state == .draining && s.frameId p == some r.frameId
    | none => false)

/-- A close order pending is removed with the order of its origin (R95). -/
def dropCloses (o : Origin) (s : State) : State :=
  each allStreams (fun st => modStream st (fun r => if r.closeBy = some o then { r with closeBy := none } else r)) s

end Sys2Proof.Machine
end

