-- ==== Sys2Proof/Machine/Timebase.lean ====
section
/-! DEFINITION. The timebase unit: candidates and selection, the comparison loop, lock and holdover
(spec/04_the_rack_timebase.md). -/

namespace Sys2Proof.Machine

/-! ### Candidates and selection (R63 to R69) -/

/-- The candidacy of a source, if it is on the candidate list: REFIN while enabled and active, with rank 0
(R63); a port while it holds a candidacy (R64). -/
def State.candidacy (s : State) : Source → Option Candidacy
  | .refin => if s.settings.refinEnable && s.tb.refinActive then some ⟨s.settings.refinClass, 0⟩ else none
  | .port p => s.tb.candidates[p]

/-- The FAILED mark of a source (R66). -/
def State.isFailed (s : State) : Source → Bool
  | .refin => s.tb.refinFailed
  | .port p => s.tb.failed[p]

/-- The candidacy of an eligible source (R66). -/
def State.eligible (s : State) (c : Source) : Option Candidacy := if s.isFailed c then none else s.candidacy c

/-- Class and rank put `a` before `b` (R67). -/
def Candidacy.before (a b : Candidacy) : Bool := b.cls < a.cls || (a.cls == b.cls && a.rank < b.rank)

/-- All sources, REFIN before any port and lower port numbers first: the order that settles ties (R67). -/
def allSources : List Source := .refin :: allPorts.map .port

/-- The first eligible candidate in the order of R67, with its candidacy. -/
def State.best (s : State) : Option (Source × Candidacy) :=
  allSources.foldl (fun best c =>
    match s.eligible c, best with
    | some x, some (_, y) => if x.before y then some (c, x) else best
    | some x, none => some (c, x)
    | none, _ => best) none

/-- The class of a reference, 0 when there is none (R78, R80). -/
def State.classOf (s : State) (c : Option Source) : Nat := ((c.bind s.candidacy).map (·.cls)).getD 0

/-- The rank of a reference, 0 when there is none (R81). -/
def State.rankOf (s : State) (c : Option Source) : Nat := ((c.bind s.candidacy).map (·.rank)).getD 0

/-- TIMEBASE EVENT to S, with the values after the change (R78). -/
def postTimebase (left : TimebaseState) (cause : TimebaseCause) (s : State) : State :=
  postNotice .service .timebaseEvent
    (be 1 left.code ++ be 1 s.tb.state.code ++ be 1 cause.code ++ be 1 (sourceCode s.tb.selected)
      ++ be 1 (s.classOf s.tb.selected) ++ beInt 2 s.tb.trim ++ be 8 s.now.toNat) s

/-- A change of timebase state, or of reference within ACQUIRING, with its notice. -/
def changeTimebase (cause : TimebaseCause) (f : Timebase → Timebase) (s : State) : State :=
  s |> modTb f |> postTimebase s.tb.state cause

/-- An acquisition starts on a candidate (R69). -/
def startAcquisition (c : Source) (cause : TimebaseCause) (s : State) : State :=
  changeTimebase cause (fun t => { t with
    state := .acquiring, selected := some c, trim := t.savedTrim, pull := 0
    comparisons := 0, inWindow := 0, expected := none, edgeSince := s.clock.cycle, edges := 0 }) s

/-- Entry to FREE: k and k_s take the working local trim, j is 0, no reference is selected (R62). -/
def enterFree (cause : TimebaseCause) (s : State) : State :=
  changeTimebase cause (fun t => { t with
    state := .free, selected := none, trim := s.settings.localTrim, savedTrim := s.settings.localTrim, pull := 0 }) s

/-- Entry to HOLDOVER: k is restored to k_s (R75). -/
def enterHoldover (cause : TimebaseCause) (s : State) : State :=
  changeTimebase cause (fun t => { t with
    state := .holdover, selected := none, trim := t.savedTrim, pull := 0, excursions := 0, holdoverBeats := 0
    unlocks := satAdd t.unlocks 1 }) s

/-- Selection in FREE and in HOLDOVER: an acquisition starts on the best candidate, if any (R68). -/
def selectIdle (s : State) : State :=
  match s.best with
  | some (c, _) => startAcquisition c .select s
  | none => s

/-- Whether the selected reference is still eligible (R68). -/
def State.selectedEligible (s : State) : Bool := ((s.tb.selected.bind s.eligible)).isSome

/-- Selection re-runs (R68). `gone` is the cause where an acquisition's reference has gone: LOST, or
ACQ FAIL after a failed acquisition (Table 15). Where the selected reference has lowered its own class and another
candidate is now better, Table 15 names no cause; SELECT is the model's choice (DESIGN CHOICE,
notes/assumptions/26.md). -/
def reselect (gone : TimebaseCause) (s : State) : State :=
  match s.tb.state with
  | .free | .holdover => selectIdle s
  | .acquiring =>
    if s.selectedEligible then
      match s.best with
      | some (c, _) => if s.tb.selected = some c then s else startAcquisition c .select s
      | none => s
    else
      match s.best with
      | some (c, _) => startAcquisition c gone s
      | none => enterFree gone s
  | .locked =>
    if s.selectedEligible then
      match s.best with
      | some (c, x) => if s.classOf s.tb.selected < x.cls then startAcquisition c .switch s else s
      | none => s
    else s |> enterHoldover .lost |> selectIdle

/-- A port's candidacy is removed; selection re-runs if it held one (R65). The FAILED mark stays. -/
def withdrawPort (p : PortIx) (s : State) : State :=
  if (s.tb.candidates[p]).isSome then
    s |> modTb (fun t => { t with candidates := t.candidates.set p none }) |> reselect .lost
  else s

/-! ### Roles (R70) -/

/-- The class that a role notice carries: the port's candidate class; a free value where the port has no
candidacy left (notes/assumptions/3.md). -/
def postRole (p : PortIx) (role : Nat) (s : State) : State :=
  match s.tb.candidates[p] with
  | some c => postNotice (.port p) .referenceRole (be 1 role ++ be 1 s.tb.state.code ++ be 1 c.cls) s
  | none =>
    { s with freeReads := s.freeReads + 1 } |>
      postNotice (.port p) .referenceRole
        (be 1 role ++ be 1 s.tb.state.code ++ be 1 (Config.lostRoleClass s.freeReads).toNat)

/-- REFERENCE ROLE at the end of an event: GAINED 1 to a port selected now and not at the start, LOST 2 to a
port selected at the start and not now (R70); `s0` is the state before the event. -/
def postRoles (s0 s : State) : State :=
  if s0.tb.selected = s.tb.selected then s
  else
    let s := match s.tb.selected with
      | some (.port p) => postRole p 1 s
      | _ => s
    match s0.tb.selected with
    | some (.port p) => postRole p 2 s
    | _ => s

/-! ### The comparison loop (R71 to R75) -/

/-- An acquisition fails: the candidate is marked FAILED, the counter rises, selection re-runs (R74). -/
def failAcquisition (s : State) : State :=
  s |> modTb (fun t => { t with
        acquisitionFailures := satAdd t.acquisitionFailures 1
        refinFailed := t.refinFailed || decide (t.selected = some .refin)
        failed := match t.selected with
          | some (.port p) => t.failed.set p true
          | _ => t.failed })
    |> reselect .acqFail

/-- The phase error: expected less sampled, signed, clamped (R71). -/
def phaseError (expected sampled : Stamp) : Int := clampInt (expected - sampled).toInt (-32767) 32767

/-- The expected time of a comparison: the sampled time at the first, then 256,000 sub-ticks on (R71). -/
def Timebase.expectedTime (t : Timebase) (sampled : Stamp) : Stamp :=
  match t.expected with
  | none => sampled
  | some x => x + BitVec.ofNat 64 Config.comparisonInterval

/-- Trim and pull after a comparison with phase error `e`; both divisions truncate toward zero (R72). -/
def steer (e : Int) (t : Timebase) : Timebase :=
  { t with
    trim := clampInt (t.trim + clampInt (e.tdiv 4) (-16) 16) (-2047) 2047
    pull := clampInt (e.tdiv 2) (-1024) 1024 }

/-- The lock judgement of ACQUIRING (R74). -/
def judgeLock (e : Int) (s : State) : State :=
  let s := modTb (fun t => { t with
    comparisons := t.comparisons + 1
    inWindow := if e.natAbs ≤ Config.acquireWindow then t.inWindow + 1 else 0 }) s
  if Config.lockRun ≤ s.tb.inWindow then
    changeTimebase .lock (fun t => { t with
      state := .locked, savedTrim := t.trim, locks := satAdd t.locks 1, excursions := 0 }) s
  else if Config.acquireLimit ≤ s.tb.comparisons then failAcquisition s
  else s

/-- The window judgement of LOCKED (R75). -/
def judgeWindow (e : Int) (s : State) : State :=
  if e.natAbs ≤ Config.lockWindow then modTb (fun t => { t with excursions := 0, savedTrim := t.trim }) s
  else
    let s := modTb (fun t => { t with excursions := t.excursions + 1 }) s
    if Config.excursionLimit ≤ s.tb.excursions then s |> enterHoldover .phase |> selectIdle else s

/-- A comparison edge of the selected reference (R71, R72). In FREE and HOLDOVER there is none. -/
def compareEdge (s : State) : State :=
  let sampled := s.now
  let expected := s.tb.expectedTime sampled
  let e := phaseError expected sampled
  let compared := modTb (fun t => { steer e t with
    expected := some expected, edges := 0, edgeSince := s.clock.cycle }) s
  match s.tb.state with
  | .acquiring => judgeLock e compared
  | .locked => judgeWindow e compared
  | _ => s

/-- Whether a source is the reference whose edges are counted. -/
def State.isReference (s : State) (c : Source) : Bool :=
  decide (s.tb.selected = some c) && (s.tb.state == .acquiring || s.tb.state == .locked)

/-- One edge or symbol slot of the selected reference; every `n`th is a comparison edge (R63, R64). -/
def countEdge (n : Nat) (s : State) : State :=
  if n ≤ s.tb.edges + 1 then compareEdge s else modTb (fun t => { t with edges := t.edges + 1 }) s

/-- A rising edge of REFIN (R63, R66). An edge that finds REFIN absent makes it active and clears its FAILED
mark; an edge of the selected reference counts towards its comparison edge. -/
def takeRefinEdge (s : State) : State :=
  let wasReference := s.isReference .refin
  let edge := modTb (fun t => { t with refinLastEdge := s.clock.cycle }) s
  if s.tb.refinActive then
    if wasReference then countEdge Config.refinEdgesPerComparison edge else edge
  else
    edge |> modTb (fun t => { t with refinActive := true, refinFailed := false }) |> reselect .lost

/-- REFIN is absent after 1024 ticks without a rising edge (R63). -/
def takeRefinAbsence (s : State) : State :=
  if s.tb.refinActive && decide (Config.refinAbsence ≤ s.clock.cycle - s.tb.refinLastEdge) then
    s |> modTb (fun t => { t with refinActive := false })
      |> (if s.settings.refinEnable then reselect .lost else id)
  else s

/-- Whether the edge-absence timer has reached 3000 ticks (R73). -/
def State.edgeAbsent (s : State) : Bool := Config.edgeAbsence ≤ s.clock.cycle - s.tb.edgeSince

/-- 3000 ticks without a comparison edge (R73): an acquisition fails, LOCKED ends with cause NO EDGE. -/
def takeEdgeAbsence (s : State) : State :=
  if s.edgeAbsent then
    match s.tb.state with
    | .acquiring => failAcquisition s
    | .locked => s |> enterHoldover .noEdge |> selectIdle
    | _ => s
  else s

/-! ### Holdover (R77) -/

/-- The holdover has expired: FREE at the local trim (R77). -/
def expireHoldover (s : State) : State :=
  if s.tb.state = .holdover ∧ s.settings.holdoverLimit ≤ s.tb.holdoverBeats then
    s |> modTb (fun t => { t with holdoverExpiries := satAdd t.holdoverExpiries 1 }) |> enterFree .expired
  else s

/-- A beat falls due in HOLDOVER (R77). -/
def holdoverBeat (s : State) : State :=
  if s.tb.state = .holdover then
    s |> modTb (fun t => { t with holdoverBeats := t.holdoverBeats + 1 }) |> expireHoldover
  else s

end Sys2Proof.Machine
end

