-- ==== Sys2Proof/Machine/Triggers.lean ====
section
/-! DEFINITION. The trigger router: acceptance, trigger queues, fire lists and pulses
(spec/08_trigger_distribution.md). -/

namespace Sys2Proof.Machine

/-- A pin is a subscriber pin of a line while its mode is OUT and its line is that line (R138). -/
def Pin.subscribes (x : Pin) (l : LineIx) : Bool := x.mode == .output && x.line == l

/-- The pulse in progress at a rack time: one whose end has not been reached (R151). -/
def Pin.pulseAt (x : Pin) (now : Stamp) : Option Pulse := x.pulse.filter (fun q => now.toNat < q.stop.toNat)

/-- The level a pin shows: an OUT pin's driven level, by its polarity and the pulse in progress; otherwise the
level on the wire (R151, R152). -/
def Pin.level (x : Pin) (now : Stamp) : Bool :=
  match x.mode with
  | .output => (x.pulseAt now).isSome != (x.polarity == 1)
  | _ => x.wire

/-- The level the hub drives on a pin, `none` for high impedance: only OUT pins are driven, and none at
rest (R171, Table 35). -/
def State.pinDrive (s : State) (i : PinIx) : Option Bool :=
  if s.atRest then none else if (s.pins[i]).mode = .output then some ((s.pins[i]).level s.now) else none

/-- The fire moment: the smallest multiple of 256 sub-ticks that is not below F (R150). R150 gives no modulus for it; that of an
F in the last 255 sub-ticks before 2^64 it is 0, modulo 2^64, is the model's choice (DESIGN CHOICE,
notes/assumptions/33.md). -/
def fireMoment (fire : Stamp) : Stamp := BitVec.ofNat 64 ((fire.toNat + 255) / 256 * 256)

/-- The end of a pulse of W ticks (R151). R151 gives no modulus for it; that an end at or beyond 2^64 is taken modulo 2^64 is the
model's choice (DESIGN CHOICE, notes/assumptions/33.md). -/
def pulseStop (start : Stamp) (width : Nat) : Stamp := start + BitVec.ofNat 64 (width * Config.subTicks)

/-- A fire: the pulse starts and the fires counter rises (R151). -/
def Pin.startPulse (start : Stamp) (x : Pin) : Pin :=
  { x with
    pulse := some ⟨start, pulseStop start x.width⟩
    counters := { x.counters with fires := satAdd x.counters.fires 1 } }

/-- A fire merged into a pulse (R150, R151). -/
def Pin.mergeFire (x : Pin) : Pin :=
  { x with counters := { x.counters with mergedFires := satAdd x.counters.mergedFires 1 } }

def Pin.countLate (x : Pin) : Pin :=
  { x with counters := { x.counters with lateFires := satAdd x.counters.lateFires 1 } }

/-- An entry placed after every entry whose F is at or below its own (R150). -/
def insertFire (fire : Stamp) : List Stamp → List Stamp
  | [] => [fire]
  | x :: xs => if x.toNat ≤ fire.toNat then x :: insertFire fire xs else fire :: x :: xs

/-- Placing an entry; a fifth discards the latest, the one placed last among equals (R150). -/
def Pin.placeFire (fire : Stamp) (x : Pin) : Pin :=
  let fires := insertFire fire x.fires
  if Config.fireList < fires.length then
    { x with
      fires := fires.take Config.fireList
      counters := { x.counters with overruns := satAdd x.counters.overruns 1 } }
  else { x with fires := fires }

/-- The line's late counter (R138). -/
def countLate (l : LineIx) : State → State := modLine l (fun x => { x with late := satAdd x.late 1 })

/-- An acceptance enters F in the fire list of an OUT pin (R150): merged into the pulse, a late fire, or
placed. A late fire starts its pulse at the tick in progress (notes/assumptions/11.md). -/
def enterFire (l : LineIx) (fire : Stamp) (i : PinIx) (s : State) : State :=
  let x := s.pins[i]
  let moment := fireMoment fire
  let isLate : Bool := moment.toNat ≤ s.now.toNat
  match x.pulseAt s.now with
  | some pulse =>
    if moment.toNat < pulse.stop.toNat then
      if isLate then s |> modPin i (fun x => x.mergeFire.countLate) |> countLate l
      else modPin i Pin.mergeFire s
    else modPin i (Pin.placeFire fire) s
  | none =>
    if isLate then
      let start := BitVec.ofNat 64 (s.now.toNat / 256 * 256)
      s |> modPin i (fun x => (x.startPulse start).countLate) |> countLate l
    else modPin i (Pin.placeFire fire) s

/-- A copy meets a port's trigger queue: appended, OVERRUN after a loss; or lost to a full queue (R146). -/
def enqueueCopy (c : TriggerCopy) (p : PortIx) (s : State) : State :=
  let q := s.triggers[p]
  if q.copies.length < Config.triggerQueue then
    modTriggers p (fun q => ⟨q.copies ++ [{ c with overrun := q.overrun }], false⟩) s
  else
    s |> modTriggers p (fun q => { q with overrun := true })
      |> countPort p (fun c => { c with triggerOverruns := satAdd c.triggerOverruns 1 })

/-- A trigger is accepted and fanned out to the line's subscriber ports and pins (R145). -/
def acceptTrigger (l : LineIx) (t0 : Stamp) (origin : Byte) (clamped : Bool) (s : State) : State :=
  let x := s.lines[l]
  let fire := t0 + BitVec.ofNat 64 (x.latency * Config.subTicks)
  let copy : TriggerCopy := ⟨l, origin, fire, clamped, false, x.pendingMerged⟩
  s |> modLine l (fun x => { x with last := some t0, accepted := satAdd x.accepted 1, pendingMerged := 0 })
    |> each (allPorts.filter (fun p => x.subscribers[p])) (enqueueCopy copy)
    |> each (allPins.filter (fun i => (s.pins[i]).subscribes l)) (enterFire l fire)

/-- The holdoff test: merged when T0 is below last + H × 256, without wrap (R144). -/
def Line.merges (x : Line) (t0 : Stamp) : Bool :=
  match x.last with
  | some last => t0.toNat < last.toNat + x.holdoff * Config.subTicks
  | none => false

/-- A trigger judged at its line by the holdoff test (R144, R145). -/
def judgeTrigger (l : LineIx) (t0 : Stamp) (origin : Byte) (clamped : Bool) (s : State) : State :=
  if (s.lines[l]).merges t0 then
    modLine l (fun x => { x with merged := satAdd x.merged 1, pendingMerged := satInc8 x.pendingMerged }) s
  else acceptTrigger l t0 origin clamped s

/-- An inbound TRIGGER parcel: a line above 31 is malformed; a stamp more than 2 ticks after the arrival is
replaced by it and marked CLAMPED (R142, R143). -/
def takeTrigger (p : PortIx) (line : Byte) (stamp : Stamp) (s : State) : State :=
  match line? line.toNat with
  | none => countMalformed p s
  | some l =>
    if s.now.toNat + 512 < stamp.toNat then judgeTrigger l s.now (BitVec.ofNat 8 p.val) true s
    else judgeTrigger l stamp (BitVec.ofNat 8 p.val) false s

/-- The pin stamp: the sampling cycle in whole ticks less 2 ticks, not below 0 (R149). -/
def State.pinStamp (s : State) : Stamp := BitVec.ofNat 64 (s.clock.rackTime.toNat / 256 * 256 - 512)

/-- Whether a change to `level` is an edge of an IN pin's polarity (R149). -/
def Pin.takesEdge (x : Pin) (level : Bool) : Bool :=
  (x.polarity == 0 && level) || (x.polarity == 1 && !level) || x.polarity == 2

/-- A pin is sampled at `level`: in IN, a level other than the reference is an edge, and one of the pin's
polarity posts a trigger (R149). -/
def samplePin (i : PinIx) (level : Bool) (s : State) : State :=
  let x := s.pins[i]
  let s := modPin i (fun x => { x with wire := level }) s
  if x.mode = .input ∧ x.reference ≠ level then
    let s := modPin i (fun x => { x with reference := level }) s
    if x.takesEdge level then
      s |> modPin i (fun x => { x with counters := { x.counters with edges := satAdd x.counters.edges 1 } })
        |> judgeTrigger x.line s.pinStamp (BitVec.ofNat 8 (16 + i.val)) false
    else s
  else s

/-- The entries at the head of a fire list whose fire moment has been reached, taken in list order: inside
the pulse in progress an entry merges, otherwise it fires (R151). Where one cycle reaches two fire moments and the second is
the end of the pulse that the first starts or merges into, R151's bullets merge the second entry and its text has it fire;
that it fires is the model's choice (DESIGN CHOICE, notes/assumptions/27.md). -/
def Pin.takeFires (now : Stamp) (x : Pin) : List Stamp → Pin
  | [] => { x with fires := [] }
  | f :: rest =>
    let moment := fireMoment f
    if moment.toNat ≤ now.toNat then
      let inside : Bool := match x.pulse with
        | some pulse => decide (moment.toNat < pulse.stop.toNat)
        | none => false
      if inside then Pin.takeFires now x.mergeFire rest else Pin.takeFires now (x.startPulse moment) rest
    else { x with fires := f :: rest }

/-- Rack time reaches a fire moment of an OUT pin (R151). -/
def firePin (i : PinIx) (s : State) : State :=
  if (s.pins[i]).mode = .output then modPin i (fun x => x.takeFires s.now x.fires) s else s

/-- The entries at the head of a fire list whose fire moment lies before the end of a pulse leave it merged (R151). -/
def Pin.mergeInside (pulse : Pulse) (x : Pin) : Pin :=
  let inside (f : Stamp) : Bool := (fireMoment f).toNat < pulse.stop.toNat
  { x with
    fires := x.fires.dropWhile inside
    counters := { x.counters with mergedFires := satAdd x.counters.mergedFires (x.fires.takeWhile inside).length } }

/-- Rack time reaches the end of a pulse. A fire moment that the same cycle has reached and that lies before that end is
merged into the pulse, whichever of the two is taken first: the comparison is made on the times (R151). -/
def endPulse (i : PinIx) (s : State) : State :=
  match (s.pins[i]).pulse with
  | some pulse =>
    if pulse.stop.toNat ≤ s.now.toNat then modPin i (fun x => { x.mergeInside pulse with pulse := none }) s else s
  | none => s

/-- A port leaves every line's subscriber ports (R138, R146). -/
def leaveLines (p : PortIx) (s : State) : State :=
  each (List.finRange 32) (fun l => modLine l (fun x => { x with subscribers := x.subscribers.set p false })) s

/-- A port's trigger queue is emptied and its overrun mark cleared (R146). -/
def emptyTriggers (p : PortIx) : State → State := modTriggers p (fun _ => .initial)

/-- Whether a copy is LATE at its launch: t + e + 16 × 256 exceeds F (R147). -/
def TriggerCopy.isLate (c : TriggerCopy) (now : Stamp) (estimate : BitVec 16) : Bool :=
  c.fire.toNat < (now + estimate.setWidth 64 + 4096).toNat

/-- The outbound TRIGGER parcel of a copy (R147, Table 28). -/
def TriggerCopy.parcel (c : TriggerCopy) (late : Bool) : List Byte :=
  Machine.parcel kindTrigger
    (be 1 c.line.val ++ c.origin :: (be 8 c.fire.toNat ++ be 1 (triggerFlags late c.clamped c.overrun) ++ [c.merged]))

end Sys2Proof.Machine
end

