-- ==== Sys2Proof/Machine/PortLife.lean ====
section
/-! DEFINITION. The link port controllers: port states, teardowns, loss, reset, admission
(spec/02_port_life_and_hot_swap.md; spec/01_the_link.md R7, R17). -/

namespace Sys2Proof.Machine

/-! ### Entering a state -/

/-- Fields of PORT EVENT (Table 33), with the frame held before or after the change. -/
def portEventFields (p : PortIx) (left entered : PortState) (cause : PortCause) (frame : Option Frame) : List Byte :=
  be 1 p.val ++ be 1 left.code ++ be 1 entered.code ++ be 1 cause.code
    ++ match frame with
      | some x => be 1 (1 + bit x.intent 1) ++ be 4 x.id.toNat ++ [x.cls]
      | none => be 6 0

/-- PORT EVENT to S (R41). -/
def postPortEvent (p : PortIx) (left entered : PortState) (cause : PortCause) (frame : Option Frame) : State → State :=
  postNotice .service .portEvent (portEventFields p left entered cause frame)

/-- The delay record is cleared but for its next echo number (R53, R59). -/
def Delay.clear (d : Delay) : Delay := { d with due := none, outstanding := none, training := none, estimate := none }

/-- The receive framer in OUTSIDE with an empty buffer (R17). -/
def Framer.empty : Framer := ⟨.outside, []⟩

/-- Nothing is held for a port out of service: frame ID, epoch, join deadline, hold, run of missing echoes,
estimate and echoes, slot and queue, trigger queue, due beat, drain set (R14, R19, R22, R34, R35, R54, R154). -/
def outOfService (p : PortIx) (s : State) : State :=
  { s with origins := s.origins.set p none }
    |> dropCloses (.port p)
    |> modPort p (fun x => { x with
        frame := none, epoch := none, joinDeadline := none, held := false, holdBeats := 0, missRun := 0 })
    |> modDelay p Delay.clear
    |> modEgress p (fun e => { e with dueBeat := none })
    |> emptyTriggers p
    |> setDrainSet p []

/-- What entry to a port state sets (R17, R19, R20, R21, R23, R25, R27, R28, R39, R50). -/
def enterState (p : PortIx) (st : PortState) (s : State) : State :=
  let cycle := s.clock.cycle
  match st with
  | .vacant =>
    s |> outOfService p |> modPort p (fun x => { x with
      state := .vacant, framer := .empty, score := 0, fillRun := 0, failures := 0 })
  | .listening =>
    s |> outOfService p |> modPort p (fun x => { x with
      state := .listening, framer := .empty, score := 0, fillRun := 0, silenceSince := cycle })
  | .training =>
    s |> modPort p (fun x => { x with state := .training, framer := .empty, score := 0, silenceSince := cycle })
      |> modDelay p (fun d => { d with due := some (.training 1), outstanding := none, training := some ⟨1, []⟩ })
  | .joining =>
    { s with origins := s.origins.set p (some .initial) }
      |> modPort p (fun x => { x with
          state := .joining, joinDeadline := some (s.tb.beat + BitVec.ofNat 32 s.settings.joinLimit) })
  | .admitted => modPort p (fun x => { x with state := .admitted, joinDeadline := none }) s
  | .active =>
    modPort p (fun x => { x with
      state := .active, held := false, holdBeats := 0, missRun := 0, failures := 0, epoch := none }) s
  | .leaving => modPort p (fun x => { x with state := .leaving, held := false, holdBeats := 0, missRun := 0 }) s
  | .parked => s |> outOfService p |> modPort p (fun x => { x with state := .parked, score := 0 })
  | .faulted => s |> outOfService p |> modPort p (fun x => { x with state := .faulted, score := 0, fillRun := 0 })

/-- A port state change: its PORT EVENT and what entry sets (R41). -/
def moveTo (p : PortIx) (st : PortState) (cause : PortCause) (s : State) : State :=
  let x := s.ports[p]
  s |> postPortEvent p x.state st cause x.frame |> enterState p st

/-! ### Teardowns -/

/-- Every tap whose consumer is the port is removed (R32, R34, R131). -/
def removePortTaps (p : PortIx) (s : State) : State := each (s.tapsOf p) removeTap s

/-- What the blocks settle when an ACTIVE port leaves service; `orphan` for a loss, drains otherwise
(R32, R34, R37). -/
def teardown (orphan : Bool) (p : PortIx) (s : State) : State :=
  s |> leaveStreams orphan p |> removePortTaps p |> withdrawPort p |> leaveLines p |> emptyTriggers p

/-- The order in progress of a port's origin is answered ABORTED where it is RUNNING; a close order pending
goes with it (R32, R95, R156; notes/assumptions/6.md). -/
def abortOrder (p : PortIx) (s : State) : State :=
  s |> answer (.port p) .aborted [] |> dropCloses (.port p)

/-- The planned teardown at entry to LEAVING (R32, R59). -/
def plannedTeardown (p : PortIx) (s : State) : State :=
  let s := s |> teardown false p |> abortOrder p |> modDelay p (fun d => { d with due := none, outstanding := none })
  setDrainSet p (s.drainSetOf p) s

/-- LISTENING or VACANT by presence (R22). -/
def State.byPresence (s : State) (p : PortIx) : PortState := if (s.ports[p]).presence then .listening else .vacant

/-- A loss taken on a port, by its state (R22, R34, R35). -/
def takeLoss (p : PortIx) (cause : PortCause) (s : State) : State :=
  let x := s.ports[p]
  if x.state.framerRuns then
    (if x.state = .active then teardown true p s else s) |> moveTo p (s.byPresence p) cause
  else s

/-- The effect of RESET LINK by port state; a disable and hub restart end in VACANT (R37, R40, R44). -/
def resetPort (p : PortIx) (vacate : Bool) (cause : PortCause) (s : State) : State :=
  let x := s.ports[p]
  (if x.state = .active then teardown false p s else s)
    |> modPort p (fun x => { x with fillRun := 0, failures := 0 })
    |> moveTo p (if !vacate && x.presence && s.settings.enable[p] then .listening else .vacant) cause

/-! ### Link measures (R4, R7) -/

/-- The error score rises by 8, stopping at 256; the rise that brings it there is a loss (R7). -/
def raiseScore (p : PortIx) (s : State) : State :=
  let score := min Config.scoreLimit ((s.ports[p]).score + Config.scoreStep)
  let s := modPort p (fun x => { x with score := score }) s
  if score = Config.scoreLimit then takeLoss p .score s else s

/-- A check failure: the counter rises and the score rises by 8 (R4). -/
def checkFailure (p : PortIx) (s : State) : State :=
  s |> countPort p (fun c => { c with checkFailures := satAdd c.checkFailures 1 }) |> raiseScore p

/-! ### Failed attempts (R23, R24, R25) -/

/-- A failed attempt: the consecutive-failure count rises; the third faults the port. -/
def failAttempt (p : PortIx) (cause : PortCause) (s : State) : State :=
  let failures := (s.ports[p]).failures + 1
  let s := modPort p (fun x => { x with failures := failures }) s
  if Config.failureLimit ≤ failures then moveTo p .faulted .fault s else moveTo p .listening cause s

/-- The join deadline's beat falls due on a JOINING port (R25). -/
def expireJoin (p : PortIx) (s : State) : State :=
  let x := s.ports[p]
  if x.state = .joining ∧ x.joinDeadline = some s.tb.beat then failAttempt p .joinLimit s else s

/-! ### Presence and enable (R18, R19, R40) -/

/-- Ticks for which the PRESENT pin has held its level, as the filter times them (R18). -/
def State.pinHeld (s : State) (p : PortIx) : Nat := s.clock.cycle - (s.ports[p]).pinSince

/-- The filter is due to complete: the pin has held a level other than the filtered one for 1024 ticks (R18). -/
def State.filterDue (s : State) (p : PortIx) : Bool :=
  (s.ports[p]).pin != (s.ports[p]).presence && decide (Config.presenceFilter ≤ s.pinHeld p)

/-- The PRESENT pin stands at a level that it has held for a number of ticks: no level that it held before is timed any
longer, so a return to the old level restarts the filter (R18; notes/assumptions/12.md). -/
def samplePresent (p : PortIx) (level : Bool) (heldTicks : Nat) (s : State) : State :=
  modPort p (fun x => { x with pin := level, pinSince := max x.pinSince (s.clock.cycle - heldTicks) }) s

/-- Filtered presence takes the pin's level when the filter completes, and the port state follows (R18, R19, R22). Within hub
restart a VACANT port waits for the completion (R172). -/
def completeFilter (p : PortIx) (s : State) : State :=
  if !s.filterDue p then s
  else
    let x := s.ports[p]
    let s := modPort p (fun x => { x with presence := x.pin }) s
    if x.pin then
      if x.state = .vacant ∧ s.settings.enable[p] ∧ !s.restarting then moveTo p .listening .presence s else s
    else
      match x.state with
      | .listening | .parked | .faulted => moveTo p .vacant .presence s
      | _ => takeLoss p .presence s

/-- The PRESENT pin is sampled, and its filter completes if it is due (R18). -/
def changePresence (p : PortIx) (level : Bool) (heldTicks : Nat) (s : State) : State :=
  s |> samplePresent p level heldTicks |> completeFilter p

/-- The enable bit of a port is set or cleared (R19, R40). -/
def setEnable (p : PortIx) (on : Bool) (s : State) : State :=
  let s := modSettings (fun w => { w with enable := w.enable.set p on }) s
  let x := s.ports[p]
  if on then
    if x.state = .vacant ∧ x.presence then moveTo p .listening .enable s else s
  else if x.state = .vacant then s
  else resetPort p true .disable s

/-! ### The fill run and silence (R8, R20, R21) -/

/-- A fill-run count is reset; from 1 or more that is a listen restart (R20). -/
def resetFillRun (p : PortIx) (s : State) : State :=
  let s := if 1 ≤ (s.ports[p]).fillRun then
      countPort p (fun c => { c with listenRestarts := satAdd c.listenRestarts 1 }) s
    else s
  modPort p (fun x => { x with fillRun := 0 }) s

/-- A symbol in LISTENING (R20, R21). -/
def countFill (p : PortIx) (symbol : Symbol) (s : State) : State :=
  if symbol = .fill then
    let run := (s.ports[p]).fillRun + 1
    let s := modPort p (fun x => { x with fillRun := run }) s
    if Config.fillRunLimit ≤ run then moveTo p .training .fillRun s else s
  else resetFillRun p s

/-- Ticks since the last received symbol of a port (R8). -/
def State.silenceOf (s : State) (p : PortIx) : Nat := s.clock.cycle - (s.ports[p]).silenceSince

/-- 256 ticks without a received symbol: a loss while the framer runs, whose partial parcel is discarded
uncounted; in LISTENING a reset of the fill run (R8, R20). -/
def takeSilence (p : PortIx) (s : State) : State :=
  if Config.silenceLimit ≤ s.silenceOf p then
    let x := s.ports[p]
    if x.state.framerRuns then s |> modPort p (fun x => { x with framer := .empty }) |> takeLoss p .silence
    else if x.state = .listening then
      s |> resetFillRun p |> modPort p (fun x => { x with silenceSince := s.clock.cycle })
    else s
  else s

/-! ### Hold (R11, R29) -/

/-- A HOLD symbol (R11). -/
def takeHold (p : PortIx) (s : State) : State :=
  let x := s.ports[p]
  if x.state = .active ∧ !x.held then
    s |> modPort p (fun x => { x with held := true, holdBeats := 0 })
      |> countPort p (fun c => { c with holds := satAdd c.holds 1 })
  else s

/-- A GO symbol (R11). -/
def takeGo (p : PortIx) (s : State) : State :=
  let x := s.ports[p]
  if x.state = .active ∧ x.held then modPort p (fun x => { x with held := false, holdBeats := 0 }) s else s

/-- The hold limit has expired: the port's taps with pending blocks are shed, the timer restarts (R29). -/
def expireHold (p : PortIx) (s : State) : State :=
  let x := s.ports[p]
  if x.state = .active ∧ x.held ∧ s.settings.holdLimit ≤ x.holdBeats then
    s |> shedHeldPort p |> modPort p (fun x => { x with holdBeats := 0 })
  else s

/-- The hold timer of a held port counts a beat (R29). -/
def holdBeat (p : PortIx) (s : State) : State :=
  let x := s.ports[p]
  if x.state = .active ∧ x.held then
    s |> modPort p (fun x => { x with holdBeats := x.holdBeats + 1 }) |> expireHold p
  else s

/-! ### Admission (R27, R28, R55) -/

/-- The admission epoch: the smallest beat number at least 4 on that is a multiple of 16 (R27). -/
def admissionEpoch (beat : Beat) : Beat := (beat + 19) &&& 0xFFFFFFF0

/-- A steady echo is made due on an ACTIVE port on its beat of the interval, never beside another echo
(R45, R55). -/
def scheduleEcho (p : PortIx) (s : State) : State :=
  let d := s.delays[p]
  if (s.ports[p]).state = .active ∧ s.tb.beat.toNat % 2 ^ s.settings.echoExp = p.val % 2 ^ s.settings.echoExp
      ∧ d.due = none ∧ d.outstanding = none then
    modDelay p (fun d => { d with due := some .steady }) s
  else s

/-- The beat falls due on an ACTIVE or LEAVING port; a beat still due is not re-numbered (R14). -/
def markBeat (p : PortIx) (s : State) : State :=
  let st := (s.ports[p]).state
  if st = .active ∨ st = .leaving then
    modEgress p (fun e => { e with dueBeat := some (e.dueBeat.getD s.tb.beat) }) s
  else s

/-- At the due time of its admission epoch's beat an ADMITTED port enters ACTIVE, with that beat due on it, its
orphans re-adopted and its steady echo schedule started (R12, R28, R103). -/
def admitPort (p : PortIx) (s : State) : State :=
  let x := s.ports[p]
  if x.state = .admitted ∧ x.epoch = some s.tb.beat then
    s |> moveTo p .active .epoch |> readoptStreams p |> markBeat p |> scheduleEcho p
  else s

/-! ### Parking (R33) -/

/-- Whether a LEAVING port may park: its drain set is FREE, its queue empty, no FAREWELL queued yet. -/
def State.mayPark (s : State) (p : PortIx) : Bool :=
  (s.ports[p]).state == .leaving && (s.drainSets[p]).isEmpty &&
    match s.origins[p] with
    | some q => q.queue.isEmpty && !q.closed
    | none => false

/-- FAREWELL is placed and the closed mark set (R33, R159). -/
def queueFarewell (p : PortIx) (s : State) : State :=
  if s.mayPark p then
    modOrigin (.port p) (fun q => { q.placeNotice .farewell [] with closed := true }) s
  else s

/-- In the event in which both parking conditions first hold, FAREWELL is queued; `s0` is the state before the
event. -/
def queueFarewells (s0 s : State) : State :=
  each allPorts (fun p s => if s0.mayPark p then s else queueFarewell p s) s

/-! ### Events -/

/-- An event begins: nothing is posted yet. -/
def begin_ (s : State) : State := { s with posts := [] }

/-- An event ends: drains of streams that emptied in it, ease and resume, role notices, the placing of what was
posted, FAREWELL (R33, R70, R98, R116, R158). R32 and R98 do not say whether a stream that a departing port produces and
taps itself ends its drain before that port's taps are removed; that the drains end after the teardown, so that the
leaving port gets no STREAM ENDED of its own, is the model's choice (DESIGN CHOICE, notes/assumptions/24.md). -/
def finish (s0 s : State) : State :=
  s |> settleDrains s0 |> judgeAllEase s0 |> postRoles s0 |> flush |> queueFarewells s0

/-- One event, whole: nothing happens while RESETN holds the hub at rest (R171). -/
def event (f : State → State) (s : State) : Host.Outcome State Fault Refusal :=
  .next (if s.atRest then s else finish s (f (begin_ s)))

end Sys2Proof.Machine
end

