-- ==== Sys2Proof/Machine/Beat.lean ====
section
/-! DEFINITION. A beat falling due, taken by every block that counts in beats (R79). -/

namespace Sys2Proof.Machine

/-- The number of the most recent beat whose due time rack time has reached: ticks div P, modulo 2^32 (R79). -/
def State.beatOf (s : State) : Beat := BitVec.ofNat 32 (s.clock.rackTime.toNat / 2 ^ (8 + s.tb.beatExp))

/-- What a beat brings to a port: admission, the due beat, the steady echo, the hold timer, the join deadline
(R14, R25, R28, R29, R55). -/
def beatPort (p : PortIx) (s : State) : State :=
  if (s.ports[p]).state = .admitted then admitPort p s
  else s |> markBeat p |> scheduleEcho p |> holdBeat p |> expireJoin p

/-- What a beat brings to a stream: its start, its orphan deadline, its drain deadline (R87, R99, R101). -/
def beatStream (st : StreamIx) (s : State) : State := s |> startStream st |> expireOrphan st |> expireDrain st

/-- Every block takes the beat. The ports come first, so that an epoch on an orphan deadline re-adopts (R102). R79 gives no
order besides; the model's choices (DESIGN CHOICE): the ports in increasing number, which orders their PORT EVENTs to S
(R41; notes/assumptions/23.md); the ports before the staged alterations, so that a changed decimation on a stream
re-adopted at the same beat finds the expected sequence absent (R129; notes/assumptions/25.md); and the ports before the
streams, so that the hold limit of a port whose tapped stream's drain deadline falls on the same beat sheds its tap first,
with TAP SHED and a shed event (R99, R127; notes/assumptions/30.md). -/
def takeBeat (s : State) : State :=
  s |> each allPorts beatPort |> each allTaps applyStaged |> each allStreams beatStream |> holdoverBeat

/-- The next beat falls due (R79). -/
def dueBeat (s : State) : State :=
  if s.beatOf = s.tb.beat then s else s |> modTb (fun t => { t with beat := s.beatOf }) |> takeBeat

end Sys2Proof.Machine
end

