-- ==== Sys2Proof/Machine/BeatCommands.lean ====
section
/-! DEFINITION. The commands of the beat and of all that counts in beats. -/

namespace Sys2Proof.Machine

/-- BEAT_DUE (R79). -/
def execBeatDue (s : State) : Host.Outcome State Fault Refusal :=
  event dueBeat s

/-- ENTER_ACTIVE: the beat in force is the admission epoch of an ADMITTED port (R28). -/
def execEnterActive (p : PortIx) (s : State) : Host.Outcome State Fault Refusal :=
  event (admitPort p) s

/-- JOIN_LIMIT_EXPIRY: the beat in force is the join deadline of a JOINING port (R25). -/
def execJoinLimitExpiry (p : PortIx) (s : State) : Host.Outcome State Fault Refusal :=
  event (expireJoin p) s

/-- HOLD_LIMIT_EXPIRY: the hold timer has reached the hold limit (R29, R127). -/
def execHoldLimitExpiry (p : PortIx) (s : State) : Host.Outcome State Fault Refusal :=
  event (expireHold p) s

/-- START_BEAT: the beat in force is the start beat of an OPENING stream (R87). -/
def execStartBeat (st : StreamIx) (s : State) : Host.Outcome State Fault Refusal :=
  event (startStream st) s

/-- ORPHAN_HOLD_EXPIRY: the beat in force is the orphan deadline (R101). -/
def execOrphanHoldExpiry (st : StreamIx) (s : State) : Host.Outcome State Fault Refusal :=
  event (expireOrphan st) s

/-- DRAIN_DEADLINE_EXPIRY: the beat in force is the drain deadline (R99). -/
def execDrainDeadlineExpiry (st : StreamIx) (s : State) : Host.Outcome State Fault Refusal :=
  event (expireDrain st) s

/-- STAGED_ALTERATION: the beat at which a staged set takes effect (R129). -/
def execStagedAlteration (t : TapIx) (s : State) : Host.Outcome State Fault Refusal :=
  event (applyStaged t) s

/-- HOLDOVER_EXPIRY: the holdover count has reached the holdover limit (R77). -/
def execHoldoverExpiry (s : State) : Host.Outcome State Fault Refusal :=
  event expireHoldover s


end Sys2Proof.Machine
end

