-- ==== Sys2Proof/Machine/Delay.lean ====
section
/-! DEFINITION. The delay unit: the echo exchange, the delay arithmetic, training and steady tracking
(spec/03_cable_delay_measurement.md). -/

namespace Sys2Proof.Machine

/-- What an answered exchange measures (R48). -/
inductive Measurement where
  | valid (d : BitVec 16)
  | negative
  | range
  deriving DecidableEq, Repr

/-- The delay arithmetic: x = r − h + a, d = (x + 1) div 2 (R48). -/
def measure (r : Nat) (h : BitVec 24) (a : Int) : Measurement :=
  let x : Int := r - h.toNat + a
  if x < 0 then .negative
  else
    let d := (x.toNat + 1) / 2
    if 65535 < d then .range else .valid (BitVec.ofNat 16 d)

/-- The trimmed mean of training: one lowest and one highest value removed, the rest averaged and rounded
half up (R52). -/
def trimmedMean (valid : List Nat) : Nat :=
  let least := valid.foldl min 65535
  let most := valid.foldl max 0
  let m := valid.length - 2
  (2 * (valid.sum - least - most) + m) / (2 * m)

/-- The end of round 8: failure below 6 valid samples, else the estimate and JOINING (R23, R52). -/
def judgeTraining (p : PortIx) (samples : List (Option (BitVec 16))) (s : State) : State :=
  let valid := (samples.filterMap id).map (·.toNat)
  if valid.length < Config.trainingQuorum then
    s |> modDelay p Delay.clear
      |> countPort p (fun c => { c with trainingFailures := satAdd c.trainingFailures 1 })
      |> failAttempt p .trainFail
  else
    let e : Estimate := ⟨BitVec.ofNat 16 (trimmedMean valid), .prompt, 0, 0⟩
    s |> modDelay p (fun d => { d.clear with estimate := some e }) |> moveTo p .joining .trained

/-- A round ends: its sample is recorded; the next round starts and its echo is due, or the training is
judged (R50, R51). -/
def endRound (p : PortIx) (sample : Option (BitVec 16)) (s : State) : State :=
  match (s.delays[p]).training with
  | none => s
  | some tr =>
    let samples := tr.samples ++ [sample]
    if tr.round < Config.trainingRounds then
      modDelay p (fun d => { d with
        due := some (.training (tr.round + 1)), training := some ⟨tr.round + 1, samples⟩ }) s
    else judgeTraining p samples s

/-- A missing steady exchange: the run rises, and the eighth in a row is a loss (R30, R56). -/
def missSteady (p : PortIx) (s : State) : State :=
  let run := (s.ports[p]).missRun + 1
  let s := modPort p (fun x => { x with missRun := run }) s
  if Config.missingLimit ≤ run then takeLoss p .echo s else s

def countEchoReject (p : PortIx) : State → State :=
  countPort p (fun c => { c with echoRejects := satAdd c.echoRejects 1 })

/-- A measurement is accepted: PROMPT counts it and may become STEADY (R57). -/
def Estimate.accept (promptCount : Nat) (value : BitVec 16) (e : Estimate) : Estimate :=
  match e.mode with
  | .steady => { e with value := value, rejects := 0 }
  | .prompt =>
    { value := value, rejects := 0, accepted := e.accepted + 1
      mode := if promptCount ≤ e.accepted + 1 then .steady else .prompt }

/-- The estimate after an accepted measurement that is no re-seat: taken whole in PROMPT, moved by at most the
slew in STEADY (R57). -/
def Estimate.tracked (slew : Nat) (m : BitVec 16) (e : Estimate) : BitVec 16 :=
  match e.mode with
  | .prompt => m
  | .steady =>
    let delta : Int := (m.toNat : Int) - e.value.toNat
    BitVec.ofInt 16 (e.value.toNat + clampInt delta (-slew) slew)

/-- A valid steady measurement: the run of missing echoes is 0, then the gate decides: a re-seat after three
rejections, else rejected or accepted (R30, R56). -/
def gateSteady (p : PortIx) (m : BitVec 16) (s : State) : State :=
  let s := modPort p (fun x => { x with missRun := 0 }) s
  match (s.delays[p]).estimate with
  | none => s
  | some e =>
    let set (e : Estimate) : State → State := modDelay p (fun d => { d with estimate := some e })
    let delta : Int := (m.toNat : Int) - e.value.toNat
    if 3 ≤ e.rejects then set (e.accept s.settings.promptCount m) s
    else if s.settings.gate < delta.natAbs then
      s |> set { e with rejects := e.rejects + 1 } |> countEchoReject p
    else set (e.accept s.settings.promptCount (e.tracked s.settings.slew m)) s

/-- The end of an answered exchange, by its purpose (R46, R48, R51, R56). -/
def endExchange (p : PortIx) (purpose : Purpose) (m : Measurement) (s : State) : State :=
  match m with
  | .valid d =>
    match purpose with
    | .training _ => endRound p (some d) s
    | .steady => gateSteady p d s
  | .negative | .range =>
    let s := countEchoReject p s
    match purpose with
    | .training _ => endRound p none s
    | .steady => missSteady p s

/-- Rack time reaches the answer deadline of an outstanding echo: the exchange is MISSING (R47). -/
def expireEcho (p : PortIx) (s : State) : State :=
  match (s.delays[p]).outstanding with
  | none => s
  | some x =>
    if reached s.now x.deadline then
      let s := s |> modDelay p (fun d => { d with outstanding := none })
        |> countPort p (fun c => { c with missedEchoes := satAdd c.missedEchoes 1 })
      match x.purpose with
      | .training _ => endRound p none s
      | .steady => missSteady p s
    else s

/-- An ECHO-BACK that reaches the delay unit in time is matched against the outstanding echo (R46). -/
def matchEchoBack (p : PortIx) (number : Byte) (h : BitVec 24) (s : State) : State :=
  match (s.delays[p]).outstanding with
  | none => countStray p s
  | some x =>
    if x.number = number then
      s |> modDelay p (fun d => { d with outstanding := none })
        |> endExchange p x.purpose (measure (s.now - x.sent).toNat h s.settings.asymmetry[p])
    else countStray p s

/-- Rack time has passed a deadline: it has reached it and no longer stands at it. -/
def passed (now due : Stamp) : Bool := reached now due && now != due

/-- Whether the answer deadline of a port's outstanding echo lies before the event (R47). -/
def State.echoPassed (s : State) (p : PortIx) : Bool :=
  match (s.delays[p]).outstanding with
  | none => false
  | some x => passed s.now x.deadline

/-- An ECHO-BACK that reaches the delay unit. After the answer deadline the exchange has ended as MISSING, in this event
at the latest, and the parcel is stray; where that end has taken the port out of service no framer has collected it (R46,
R47; notes/assumptions/29.md). -/
def takeEchoBack (p : PortIx) (number : Byte) (h : BitVec 24) (s : State) : State :=
  if s.echoPassed p then
    let s := expireEcho p s
    if (s.ports[p]).state.framerRuns then countStray p s else s
  else matchEchoBack p number h s

/-- The delay estimate that a reader finds, 0 where none exists (R54). -/
def State.estimateOf (s : State) (p : PortIx) : BitVec 16 :=
  (((s.delays[p]).estimate).map (·.value)).getD 0

end Sys2Proof.Machine
end

