-- ==== Sys2Proof/Machine/StreamOrders.lean ====
section
/-! DEFINITION. The owning rules of the orders on streams, taps and the sample store
(R85 to R89, R94, R95, R117, R120, R121, R128, R130). -/

namespace Sys2Proof.Machine

/-! ### Streams -/

/-- The start beat of a new stream: the given one where it lies after the current beat, else the next (R87). -/
def startBeatFrom (current : Beat) (given : Option Beat) : Beat :=
  match given with
  | some b =>
    let ahead := (b - current).toNat
    if 1 ≤ ahead ∧ ahead ≤ 2147483647 then b else current + 1
  | none => current + 1

/-- The lowest-numbered FREE record. -/
def State.freeStreamIx (s : State) : Option StreamIx := allStreams.find? (fun st => (s.streams[st]).isNone)

/-- OPEN STREAM (R85, R86, R87; Table 17). -/
def ownOpenStream (o : Origin) (args : List Byte) (s : State) : State :=
  match o with
  | .service => refuse o .badArg s
  | .port p =>
    let tag : Byte := BitVec.ofNat 8 (field args 0 1)
    let width := field args 1 1
    let spp := field args 2 2
    let period := field args 4 3
    let given : Option Beat := if field args 10 1 % 2 = 1 then some (BitVec.ofNat 32 (field args 11 4)) else none
    let frame := (s.frameId p).getD 0
    if args.length ≠ 15 ∨ width = 0 ∨ 4 < width ∨ spp = 0 ∨ 256 < width * spp ∨ period = 0 then refuse o .badArg s
    else if (s.identity frame tag).isSome then refuse o .conflict s
    else match s.freeStreamIx with
      | none => refuse o .noRoom s
      | some st =>
        if Config.blocks < s.floorSum + Config.floorBlocks then refuse o .noRoom s
        else
          let start := startBeatFrom s.tb.beat given
          let r : Stream := {
            state := .opening, producer := some p, frameId := frame, tag := tag, width := width, spp := spp
            period := period, depth := clampNat (field args 7 2) 8 256, priority := min (field args 9 1) 3
            startBeat := start, baseline := none, resumeMark := false, eased := false, fifo := [], taps := []
            counters := StreamCounters.zero, drainDeadline := none, orphanDeadline := none, closeBy := none }
          { s with streams := s.streams.set st (some r) } |> answer o .done (be 1 st.val ++ be 4 start.toNat)

/-- CLOSE STREAM (R94, R95; Table 19). Accepted, the order stays RUNNING until the drain ends. -/
def ownCloseStream (o : Origin) (args : List Byte) (s : State) : State :=
  if args.length ≠ 1 then refuse o .badArg s
  else match stream? (field args 0 1) with
    | none => refuse o .badArg s
    | some st =>
      match s.streams[st] with
      | none => refuse o .notFound s
      | some r =>
        let owns : Bool := match o with
          | .service => true
          | .port p => r.producer == some p
        if !owns then refuse o .notOwner s
        else if r.state = .draining then refuse o .busy s
        else s |> enterDraining st |> modStream st (fun r => { r with closeBy := some o })

/-- FIND STREAM (R88). -/
def ownFindStream (o : Origin) (args : List Byte) (s : State) : State :=
  if args.length ≠ 5 then refuse o .badArg s
  else match s.identity (BitVec.ofNat 32 (field args 0 4)) (BitVec.ofNat 8 (field args 4 1)) with
    | none => refuse o .notFound s
    | some st =>
      answer o .done (be 1 st.val ++ be 1 (((s.streams[st]).map (·.state.code)).getD 0)) s

/-- READ STREAM, part 0: the record fields (Table 32). -/
def Stream.recordResult (r : Stream) : List Byte :=
  let deadline := match r.state with
    | .draining => r.drainDeadline
    | .orphaned => r.orphanDeadline
    | _ => none
  be 1 r.state.code ++ be 1 ((r.producer.map (·.val)).getD 15) ++ be 4 r.frameId.toNat ++ [r.tag]
    ++ be 1 r.width ++ be 2 r.spp ++ be 3 r.period ++ be 2 r.depth ++ be 1 r.priority ++ be 4 r.startBeat.toNat
    ++ be 1 (bit r.baseline.isSome 0 + bit r.resumeMark 1 + bit r.eased 2)
    ++ be 2 ((r.baseline.map (·.expected.toNat)).getD 0) ++ be 8 ((r.baseline.map (·.stamp.toNat)).getD 0)
    ++ be 2 ((r.baseline.map (·.count.toNat)).getD 0) ++ be 2 r.u ++ be 4 ((deadline.map (·.toNat)).getD 0)
    ++ be 1 (originCode r.closeBy)

/-- READ STREAM, part 1: the tap list and the six counters (Table 32). -/
def State.tapListResult (s : State) (r : Stream) : List Byte :=
  let entries := r.taps.flatMap (fun t => match s.taps[t] with
    | some x => be 1 x.consumer.val ++ [x.tag]
    | none => be 2 0)
  let c := r.counters
  be 1 r.taps.length ++ (entries ++ List.replicate 12 0).take 12
    ++ [c.accepted, c.dropped, c.stale, c.slip, c.early, c.late].flatMap (fun x => be 2 x.toNat)

/-- READ STREAM (R89, R175). -/
def ownReadStream (o : Origin) (args : List Byte) (s : State) : State :=
  if args.length ≠ 2 then refuse o .badArg s
  else match stream? (field args 0 1) with
    | none => refuse o .badArg s
    | some st =>
      match s.streams[st] with
      | none => refuse o .notFound s
      | some r =>
        if field args 1 1 = 0 then answer o .done r.recordResult s
        else if field args 1 1 = 1 then answer o .done (s.tapListResult r) s
        else refuse o .badArg s

/-! ### Taps -/

/-- The lowest-numbered free tap record. -/
def State.freeTapIx (s : State) : Option TapIx := allTaps.find? (fun t => (s.taps[t]).isNone)

/-- Whether a port already has a tap on a stream. -/
def State.hasTapOn (s : State) (p : PortIx) (st : StreamIx) : Bool :=
  allTaps.any (fun t => match s.taps[t] with
    | some x => x.consumer == p && x.stream == st
    | none => false)

/-- A frame names its own port only (R120, R128). -/
def foreignPort (o : Origin) (p : PortIx) : Bool := o != .service && o != .port p

/-- ADD TAP (R120, R121; Table 20). -/
def ownAddTap (o : Origin) (args : List Byte) (s : State) : State :=
  match stream? (field args 0 1), port? (field args 1 1), tapSettings? args 3 with
  | some st, some p, some given =>
    let tag : Byte := BitVec.ofNat 8 (field args 2 1)
    if args.length ≠ 24 then refuse o .badArg s
    else if foreignPort o p then refuse o .notOwner s
    else if o = .service ∧ (s.ports[p]).state ≠ .active then refuse o .notActive s
    else match s.streams[st] with
      | none => refuse o .notFound s
      | some r =>
        if r.state = .draining then refuse o .busy s
        else if r.depth < given.lag then refuse o .badArg s
        else if Config.tapsPerStream ≤ r.taps.length then refuse o .noRoom s
        else match s.freeTapIx with
          | none => refuse o .noRoom s
          | some t =>
            if s.hasTapOn p st || (s.tapOfTag p tag).isSome then refuse o .conflict s
            else
              let phase := r.baseline.map (fun b => b.expected.toNat % given.decimation)
              let lag := if given.lag = 0 then r.depth else given.lag
              let x : Tap := ⟨st, p, tag, { given with lag := lag }, phase, [], none, 0, 0, none⟩
              { s with taps := s.taps.set t (some x) }
                |> modStream st (fun r => { r with taps := r.taps ++ [t] })
                |> answer o .done (be 1 t.val ++ be 1 (phase.getD 255))
  | _, _, _ => refuse o .badArg s

/-- ALTER TAP (R128; Table 21). -/
def ownAlterTap (o : Origin) (args : List Byte) (s : State) : State :=
  match port? (field args 0 1), tapSettings? args 2 with
  | some p, some given =>
    if args.length ≠ 23 then refuse o .badArg s
    else if foreignPort o p then refuse o .notOwner s
    else match s.tapOfTag p (BitVec.ofNat 8 (field args 1 1)) with
      | none => refuse o .notFound s
      | some t =>
        let stream := (s.taps[t]).bind (fun x => s.streams[x.stream])
        if stream.map (·.state) = some .draining then refuse o .busy s
        else if (stream.map (·.depth)).getD 0 < given.lag then refuse o .badArg s
        else s |> modTap t (fun x => { x with staged := some given }) |> answer o .done []
  | _, _ => refuse o .badArg s

/-- Whether an origin may drop a tap: its consumer, the producer of its stream in OPENING or FLOWING, or S
(R130). -/
def State.mayDrop (s : State) (o : Origin) (p : PortIx) (x : Tap) : Bool :=
  match o with
  | .service => true
  | .port q => q == p || s.produces q x.stream

/-- DROP TAP (R130). TAP ENDED goes to the consumer where another origin dropped the tap. -/
def ownDropTap (o : Origin) (args : List Byte) (s : State) : State :=
  match port? (field args 0 1) with
  | none => refuse o .badArg s
  | some p =>
    if args.length ≠ 2 then refuse o .badArg s
    else match s.tapOfTag p (BitVec.ofNat 8 (field args 1 1)) with
      | none => refuse o .notFound s
      | some t =>
        match s.taps[t] with
        | none => refuse o .notFound s
        | some x =>
          if s.mayDrop o p x then
            let s := s |> answer o .done [] |> removeTap t
            if o = .port p then s else postNotice (.port p) .tapEnded (x.endedFields 2) s
          else refuse o .notOwner s

/-! ### The store -/

/-- The result bytes of READ STORE (R117, Table 32). -/
def State.storeResult (s : State) : List Byte :=
  be 2 s.store.free.length ++ be 2 s.floorSum ++ be 1 s.streamsCounted ++ be 2 s.store.lowWater
    ++ be 2 s.store.depthDrops.toNat ++ be 2 s.store.floorDrops.toNat

/-- READ STORE: after the reply has taken its value, the low-water mark is the free count (R117). -/
def ownReadStore (o : Origin) (args : List Byte) (s : State) : State :=
  if args.length ≠ 0 then refuse o .badArg s
  else s |> answer o .done s.storeResult |> modStore (fun v => { v with lowWater := v.free.length })

end Sys2Proof.Machine
end

