-- ==== Sys2Proof/Machine/Egress.lean ====
section
/-! DEFINITION. The egress arbiters and transmitters: the choice at a free boundary, the launches and the TAILs
(R1, R6, R12 to R16, R45, R80, R132 to R136, R147). -/

namespace Sys2Proof.Machine

/-! ### Slots and flights (R1, R6) -/

/-- The first slot after a parcel's TAIL: LEAD, its bytes and TAIL take one slot each (R2, R6). -/
def Flight.stop (x : Flight) : Nat := x.start + x.bytes.length + 2

/-- The first slot after the newest parcel that has been launched, over or not. -/
def Egress.ended (e : Egress) : Nat := (e.flight.map Flight.stop).getD e.lastStop

/-- The symbol slot in progress at the event. -/
def State.slotNow (s : State) : Nat := s.slotNumber (s.elapsedAt (slotFraction true) ≤ s.clock.elapsed)

/-- Whether a port has a parcel in flight at a slot. A SAMPLES or FAREWELL parcel stays in flight until the event of
its TAIL has been taken. -/
def State.inFlight (s : State) (p : PortIx) (slot : Nat) : Bool :=
  match (s.egress[p]).flight with
  | some x => x.kind != .plain || decide (slot < x.stop)
  | none => false

/-- Whether a transmitter is free at a boundary (R6); in VACANT and FAULTED it is silent (R1). -/
def State.isFree (s : State) (p : PortIx) (second : Bool) : Bool :=
  !(s.ports[p]).state.isSilent && !s.inFlight p (s.slotNumber second)

/-- The symbol of a parcel in one of its slots, from LEAD to TAIL (R2, R6). -/
def Flight.symbol (x : Flight) (slot : Nat) : Symbol :=
  if slot = x.start then .lead
  else match x.bytes[slot - x.start - 1]? with
    | some b => .data b
    | none => .tail

/-- The symbol that a port transmits in a slot of the cycle, `none` while its transmitter is silent (R1, R6). Before the
LEAD of a parcel launched in the second slot, the first carried FILL or the TAIL of the parcel before. R1 and R17 do not say
from which slot a transmitter with no parcel in flight follows a change into or out of a silent state inside the cycle; that
the present port state stands for both slots of the cycle, one already gone included, is the model's choice (DESIGN CHOICE,
notes/assumptions/35.md). -/
def State.transmits (s : State) (p : PortIx) (second : Bool) : Option Symbol :=
  let slot := s.slotNumber second
  let e := s.egress[p]
  let before : Symbol := if slot + 1 = e.lastStop then .tail else .fill
  let idle := if before = .fill ∧ (s.ports[p]).state.isSilent then none else some before
  if s.atRest then none
  else match e.flight with
    | some x => if slot < x.start then some before else if slot < x.stop then some (x.symbol slot) else idle
    | none => idle

/-! ### The choice (R12, R13, R16) -/

/-- What the arbiter can pick. -/
inductive Pick where
  | beat (n : Beat)
  | echo (purpose : Purpose)
  | trigger (c : TriggerCopy)
  | entry (e : Entry)
  | samples (t : TapIx)
  deriving DecidableEq, Repr

/-- The due beat of a port. -/
def State.pickBeat (s : State) (p : PortIx) : Option Pick := (s.egress[p]).dueBeat.map .beat

/-- The due echo of a port. -/
def State.pickEcho (s : State) (p : PortIx) : Option Pick := (s.delays[p]).due.map .echo

/-- The head of a port's trigger queue. -/
def State.pickTrigger (s : State) (p : PortIx) : Option Pick := (s.triggers[p]).copies.head?.map .trigger

/-- The head of a port's notice/reply queue. -/
def State.pickEntry (s : State) (p : PortIx) : Option Pick :=
  (s.origins[p]).bind (fun q => q.queue.head?.map .entry)

/-- Sample service: available while the port is not held and a tap has a pending block (R16). -/
def State.pickSamples (s : State) (p : PortIx) : Option Pick :=
  if (s.ports[p]).held then none else (s.chooseTap p).map .samples

/-- The first available item among those that the port state considers (R12, R13). R55 says that the steady echo follows its
beat directly unless a trigger is already waiting behind it; R13's list, and the example of spec/01_the_link.md, send the
due echo before a waiting trigger, and the model follows them (DEDUCED, notes/assumptions/36.md). -/
def State.pick (s : State) (p : PortIx) : Option Pick :=
  match (s.ports[p]).state with
  | .training => s.pickEcho p
  | .joining | .admitted => s.pickEntry p
  | .active => (s.pickBeat p).or <| (s.pickEcho p).or <| (s.pickTrigger p).or <| (s.pickEntry p).or <| s.pickSamples p
  | .leaving => (s.pickBeat p).or (s.pickEntry p)
  | .vacant | .listening | .parked | .faulted => none

/-! ### Launches (R6) -/

/-- A parcel's LEAD goes out in a slot. -/
def startFlight (p : PortIx) (kind : FlightKind) (bytes : List Byte) (slot : Nat) : State → State :=
  modEgress p (fun e => { e with flight := some ⟨kind, bytes, slot⟩, lastStop := e.ended })

/-- A parcel has ended: the transmitter is free (R6). -/
def endFlight (p : PortIx) : State → State := modEgress p (fun e => { e with flight := none, lastStop := e.ended })

/-- The BEAT parcel of beat `n` on a port (R80). -/
def State.beatParcel (s : State) (p : PortIx) (n : Beat) : List Byte :=
  parcel kindBeat
    (be 4 n.toNat ++ be 8 (s.now + (s.estimateOf p).setWidth 64).toNat ++ be 1 s.tb.state.code
      ++ be 1 (sourceCode s.tb.selected) ++ be 1 (s.classOf s.tb.selected) ++ be 1 p.val)

/-- A due beat is launched (R14, R80). -/
def launchBeat (p : PortIx) (n : Beat) (slot : Nat) (s : State) : State :=
  s |> startFlight p .plain (s.beatParcel p n) slot |> modEgress p (fun e => { e with dueBeat := none })

/-- The due echo is launched and becomes the outstanding echo (R45). -/
def launchEcho (p : PortIx) (purpose : Purpose) (slot : Nat) (s : State) : State :=
  let number := (s.delays[p]).nextEcho
  s |> startFlight p .plain (parcel kindEcho [number]) slot
    |> modDelay p (fun d => { d with
        nextEcho := d.nextEcho + 1, due := none
        outstanding := some ⟨number, s.now, s.now + BitVec.ofNat 64 Config.answerLimit, purpose⟩ })

/-- The head of the trigger queue is launched and judged LATE (R15, R147). -/
def launchTrigger (p : PortIx) (c : TriggerCopy) (slot : Nat) (s : State) : State :=
  let late := c.isLate s.now (s.estimateOf p)
  let s := s |> startFlight p .plain (c.parcel late) slot |> modTriggers p (fun q => { q with copies := q.copies.tail })
  if late then countLate c.line s else s

/-- The head of the notice/reply queue is launched and leaves it (R15, R156, R158). -/
def launchEntry (p : PortIx) (e : Entry) (slot : Nat) (s : State) : State :=
  s |> startFlight p (if e.isFarewell then .farewell else .plain) e.bytes slot |> modOrigin (.port p) .pop

/-- A payload with the bytes of each sample reversed (R133); the first argument bounds the number of samples. -/
def reverseSamples (width : Nat) : Nat → List Byte → List Byte
  | 0, bs => bs
  | _ + 1, [] => []
  | n + 1, bs => (bs.take width).reverse ++ reverseSamples width n (bs.drop width)

/-- The outbound SAMPLES parcel of a block on a tap (R132, R133, R175, Table 28). -/
def Tap.parcel (x : Tap) (r : Stream) (b : Block) : List Byte :=
  let payload := if x.settings.reversed then reverseSamples r.width b.payload.length b.payload else b.payload
  Machine.parcel kindSamples
    (x.tag :: (be 1 x.stream.val ++ be 1 (samplesFlags (x.owed != 0) b.slip b.resumed x.settings.reversed)
      ++ be 1 r.width ++ be 2 x.sequence.toNat ++ be 2 b.sequence.toNat ++ be 2 x.owed.toNat ++ be 2 b.count.toNat
      ++ be 8 b.stamp.toNat ++ be 3 r.period ++ payload))

/-- The head block of a tap's pending list, with the tap and its stream. -/
def State.headBlock (s : State) (t : TapIx) : Option (Tap × Stream × Block) :=
  match s.taps[t] with
  | none => none
  | some x =>
    match s.streams[x.stream], x.pending with
    | some r, b :: _ => (r.fifo.find? (fun k => k.number == b)).map (fun k => (x, r, k))
    | _, _ => none

/-- A tap launches its head block: its delivery sequence rises, its owed gap is delivered, the rotation pointer
takes its number (R132, R135). -/
def launchSamples (p : PortIx) (t : TapIx) (slot : Nat) (s : State) : State :=
  match s.headBlock t with
  | none => s
  | some (x, r, b) =>
    s |> startFlight p (.samples x.stream b.number t) (x.parcel r b) slot
      |> modEgress p (fun e => { e with rotation := t.val })
      |> modTap t (fun x => { x with
          pending := x.pending.tail, inFlight := some b.number, sequence := x.sequence + 1, owed := 0 })

/-- The launch of what the arbiter picked. -/
def launch (p : PortIx) (slot : Nat) : Pick → State → State
  | .beat n => launchBeat p n slot
  | .echo purpose => launchEcho p purpose slot
  | .trigger c => launchTrigger p c slot
  | .entry e => launchEntry p e slot
  | .samples t => launchSamples p t slot

/-- A symbol boundary of a port: where the transmitter is free the arbiter launches what it picks, if it is of a
kind that `want` takes; otherwise FILL goes out (R6, R13). -/
def boundary (want : Pick → Bool) (p : PortIx) (second : Bool) (s : State) : State :=
  let s := at_ (slotFraction second) s
  if s.isFree p second then
    match s.pick p with
    | some k => if want k then launch p (s.slotNumber second) k s else s
    | none => s
  else s

def Pick.isBeat : Pick → Bool
  | .beat _ => true
  | _ => false

def Pick.isEcho : Pick → Bool
  | .echo _ => true
  | _ => false

def Pick.isTrigger : Pick → Bool
  | .trigger _ => true
  | _ => false

def Pick.isEntry : Pick → Bool
  | .entry _ => true
  | _ => false

def Pick.isSamples : Pick → Bool
  | .samples _ => true
  | _ => false

/-! ### TAILs (R33, R134) -/

/-- Whether a parcel's TAIL has gone out by the end of the cycle in progress. -/
def State.tailSent (s : State) (x : Flight) : Bool := x.stop ≤ s.slotNumber true

/-- The event falls at the slot in which a parcel has ended. -/
def atStop (x : Flight) (s : State) : State := at_ (slotFraction (x.stop = s.slotNumber true)) s

/-- The TAIL of a delivered SAMPLES parcel: the reference is released, and the tap, if it still exists, has no block
in flight (R134). -/
def tailSamples (p : PortIx) (s : State) : State :=
  match (s.egress[p]).flight with
  | some x =>
    match x.kind with
    | .samples st b t =>
      if s.tailSent x then
        s |> atStop x
          |> endFlight p
          |> modTap t (fun y => if y.consumer = p ∧ y.inFlight = some b then { y with inFlight := none } else y)
          |> releaseBlock st b
      else s
    | _ => s
  | none => s

/-- The TAIL of a FAREWELL: a port still in LEAVING parks (R33, R35). -/
def tailFarewell (p : PortIx) (s : State) : State :=
  match (s.egress[p]).flight with
  | some x =>
    if x.kind = .farewell ∧ s.tailSent x then
      let s := s |> atStop x |> endFlight p
      if (s.ports[p]).state = .leaving then moveTo p .parked .farewell s else s
    else s
  | none => s

end Sys2Proof.Machine
end

