-- ==== Sys2Proof/Machine/EgressCommands.lean ====
section
/-! DEFINITION. The commands of the transmit side of a link, of departures and drains. -/

namespace Sys2Proof.Machine

/-- FREE_BOUNDARY: a symbol boundary, at which a free transmitter takes the arbiter's choice (R6, R13). -/
def execFreeBoundary (p : PortIx) (second : Bool) (s : State) : Host.Outcome State Fault Refusal :=
  event (boundary (fun _ => true) p second) s

/-- BEAT_LAUNCH: a boundary at which the arbiter's choice is the due beat (R80). -/
def execBeatLaunch (p : PortIx) (second : Bool) (s : State) : Host.Outcome State Fault Refusal :=
  event (boundary Pick.isBeat p second) s

/-- ECHO_LAUNCH: a boundary at which the arbiter's choice is the due echo (R45). -/
def execEchoLaunch (p : PortIx) (second : Bool) (s : State) : Host.Outcome State Fault Refusal :=
  event (boundary Pick.isEcho p second) s

/-- TRIGGER_LAUNCH: a boundary at which the choice is the head of the trigger queue (R147). -/
def execTriggerLaunch (p : PortIx) (second : Bool) (s : State) : Host.Outcome State Fault Refusal :=
  event (boundary Pick.isTrigger p second) s

/-- NOTICE_REPLY_LAUNCH: a boundary at which the choice is the head of the notice/reply queue (R15). -/
def execNoticeReplyLaunch (p : PortIx) (second : Bool) (s : State) : Host.Outcome State Fault Refusal :=
  event (boundary Pick.isEntry p second) s

/-- SAMPLES_LAUNCH: a boundary at which the choice is a sample tap (R132). -/
def execSamplesLaunch (p : PortIx) (second : Bool) (s : State) : Host.Outcome State Fault Refusal :=
  event (boundary Pick.isSamples p second) s

/-- SAMPLES_TAIL (R134). -/
def execSamplesTail (p : PortIx) (s : State) : Host.Outcome State Fault Refusal :=
  event (tailSamples p) s

/-- FAREWELL_TAIL (R33). -/
def execFarewellTail (p : PortIx) (s : State) : Host.Outcome State Fault Refusal :=
  event (tailFarewell p) s

/-- FAREWELL_QUEUED (R33). -/
def execFarewellQueued (p : PortIx) (s : State) : Host.Outcome State Fault Refusal :=
  event (queueFarewell p) s

/-- DRAIN_END (R98). -/
def execDrainEnd (st : StreamIx) (s : State) : Host.Outcome State Fault Refusal :=
  event (settleDrain .drainReply st) s

/-- REPLY_PLACEMENT: a reply held in the order slot joins the queue once that holds no REPLY (R156). -/
def execReplyPlacement (o : Origin) (s : State) : Host.Outcome State Fault Refusal := event (modOrigin o .placeReply) s


end Sys2Proof.Machine
end

