-- ==== Sys2Proof/Machine/PortOrders.lean ====
section
/-! DEFINITION. The owning rules of JOIN, DETACH, RESET LINK and READ LINK, and of the timebase's orders
(R26, R27, R31, R36, R43; R64, R65, R81). Each decides the order and answers it. -/

namespace Sys2Proof.Machine

/-! ### Port life -/

/-- Whether a frame ID is in the frame ID registry: held by a port in ADMITTED, ACTIVE or LEAVING (R26). -/
def State.registered (s : State) (id : BitVec 32) : Bool :=
  allPorts.any (fun p => s.frameId p == some id)

/-- The result bytes of JOIN (Table 32). -/
def State.joinResult (s : State) (p : PortIx) (epoch : Beat) : List Byte :=
  be 4 epoch.toNat ++ be 2 (s.estimateOf p).toNat ++ be 4 s.settings.rackIdentity.toNat ++ be 1 p.val

/-- JOIN (R26, R27). -/
def ownJoin (o : Origin) (args : List Byte) (s : State) : State :=
  match o with
  | .service => refuse o .badArg s
  | .port p =>
    if args.length ≠ 6 ∨ 1 < field args 5 1 then refuse o .badArg s
    else
      let frame : Frame := ⟨BitVec.ofNat 32 (field args 0 4), BitVec.ofNat 8 (field args 4 1), field args 5 1 == 1⟩
      if (s.ports[p]).state ≠ .joining ∨ s.registered frame.id then refuse o .conflict s
      else
        let epoch := admissionEpoch s.tb.beat
        s |> answer o .done (s.joinResult p epoch)
          |> modPort p (fun x => { x with frame := some frame, epoch := some epoch })
          |> moveTo p .admitted .joined

/-- A planned departure (R31, R32). -/
def departPort (p : PortIx) (s : State) : State :=
  s |> moveTo p .leaving .detach |> plannedTeardown p

/-- DETACH, decided on the length that belongs to its origin (R31, R176). -/
def ownDetach (o : Origin) (args : List Byte) (s : State) : State :=
  match o with
  | .port p => if args.length ≠ 0 then refuse o .badArg s else s |> answer o .done [] |> departPort p
  | .service =>
    if args.length ≠ 1 then refuse o .badArg s
    else match port? (field args 0 1) with
      | none => refuse o .badArg s
      | some p =>
        if (s.ports[p]).state = .active then s |> answer o .done [] |> departPort p
        else refuse o .notActive s

/-- Whether an origin may reset a port: S any; a frame its own, or one not in ADMITTED, ACTIVE or LEAVING (R36).
A VACANT port is named by anyone, for DONE and no change. -/
def State.mayReset (s : State) (o : Origin) (p : PortIx) : Bool :=
  o == .service || o == .port p ||
    match (s.ports[p]).state with
    | .admitted | .active | .leaving => false
    | _ => true

/-- RESET LINK (R36, R37). -/
def ownResetLink (o : Origin) (args : List Byte) (s : State) : State :=
  if args.length ≠ 1 then refuse o .badArg s
  else match port? (field args 0 1) with
    | none => refuse o .badArg s
    | some p =>
      if s.mayReset o p then
        let s' := answer o .done [] s
        if (s.ports[p]).state = .vacant then s' else resetPort p false .reset s'
      else refuse o .notPermitted s

/-- The ten counters in the order of Table 12. -/
def PortCounters.bytes (c : PortCounters) : List Byte :=
  [c.listenRestarts, c.trainingFailures, c.checkFailures, c.stray, c.malformed, c.echoRejects, c.missedEchoes,
   c.holds, c.shedEvents, c.triggerOverruns].flatMap (fun x => be 2 x.toNat)

/-- The result bytes of READ LINK (R43, Table 32). -/
def State.linkResult (s : State) (p : PortIx) : List Byte :=
  let x := s.ports[p]
  let e := (s.delays[p]).estimate
  let flags := bit x.presence 0 + bit s.settings.enable[p] 1 + bit x.held 2 + bit x.frame.isSome 3
    + bit ((x.frame.map (·.intent)).getD false) 4 + bit x.epoch.isSome 5 + bit e.isSome 6
    + bit (e.map (·.mode) == some .steady) 7
  be 1 x.state.code ++ be 1 flags ++ be 2 x.score ++ be 1 x.failures
    ++ be 4 ((x.frame.map (·.id.toNat)).getD 0) ++ be 1 ((x.frame.map (·.cls.toNat)).getD 0)
    ++ be 4 ((x.epoch.map (·.toNat)).getD 0) ++ be 2 (s.estimateOf p).toNat ++ x.counters.bytes

/-- READ LINK (R43). -/
def ownReadLink (o : Origin) (args : List Byte) (s : State) : State :=
  if args.length ≠ 1 then refuse o .badArg s
  else match port? (field args 0 1) with
    | none => refuse o .badArg s
    | some p => answer o .done (s.linkResult p) s

/-! ### The timebase -/

/-- PROPOSE REFERENCE (R64). -/
def ownProposeReference (o : Origin) (args : List Byte) (s : State) : State :=
  match o with
  | .service => refuse o .badArg s
  | .port p =>
    let cls := field args 0 1
    let rank := field args 1 1
    if args.length ≠ 2 ∨ 3 < cls ∨ 15 < rank then refuse o .badArg s
    else
      s |> answer o .done []
        |> modTb (fun t => { t with
            candidates := t.candidates.set p (some ⟨cls, rank⟩), failed := t.failed.set p false })
        |> reselect .lost

/-- WITHDRAW REFERENCE (R65). -/
def ownWithdrawReference (o : Origin) (args : List Byte) (s : State) : State :=
  match o with
  | .service => refuse o .badArg s
  | .port p => if args.length ≠ 0 then refuse o .badArg s else s |> answer o .done [] |> withdrawPort p

/-- Class in bits 4–5 and rank in bits 0–3 (Table 32). -/
def Candidacy.packed (c : Candidacy) : Nat := 16 * c.cls + c.rank

/-- The state detail of READ TIMEBASE (R176). ACQUIRING gives 3 of its 4 bytes and LOCKED 1; that these stand first and that
the rest is 0 is the model's choice (DESIGN CHOICE, notes/assumptions/31.md). -/
def State.timebaseDetail (s : State) : List Byte :=
  match s.tb.state with
  | .free => be 4 0
  | .acquiring => be 2 s.tb.comparisons ++ be 1 s.tb.inWindow ++ be 1 0
  | .locked => be 1 s.tb.excursions ++ be 3 0
  | .holdover => be 2 s.tb.holdoverBeats ++ be 2 s.settings.holdoverLimit

/-- The result bytes of READ TIMEBASE (R81, Table 32). -/
def State.timebaseResult (s : State) : List Byte :=
  let t := s.tb
  be 8 s.now.toNat ++ be 4 t.beat.toNat ++ be 1 (64 * t.state.code + t.beatExp) ++ be 1 (sourceCode t.selected)
    ++ be 1 (16 * s.classOf t.selected + s.rankOf t.selected)
    ++ beInt 2 t.trim ++ beInt 2 t.pull ++ beInt 2 t.savedTrim
    ++ be 1 (bit s.settings.refinEnable 0 + bit t.refinActive 1 + bit t.refinFailed 2 + 16 * s.settings.refinClass)
    ++ (t.candidates.toList.flatMap (fun c => be 1 ((c.map (fun c => 128 + c.packed)).getD 0)))
    ++ be 2 (maskOf t.failed.toList) ++ s.timebaseDetail
    ++ [t.locks, t.unlocks, t.acquisitionFailures, t.holdoverExpiries].flatMap (fun x => be 2 x.toNat)

/-- READ TIMEBASE (R81). -/
def ownReadTimebase (o : Origin) (args : List Byte) (s : State) : State :=
  if args.length ≠ 0 then refuse o .badArg s else answer o .done s.timebaseResult s

end Sys2Proof.Machine
end

