-- ==== Sys2Proof/Machine/Setup.lean ====
section
/-! DEFINITION. The setup store and the working settings: the load, SETUP READ, SETUP WRITE, SETUP CLEAR and
SET PARAM (spec/10_setup_store_and_start_up.md; R178, R179). -/

namespace Sys2Proof.Machine

/-! ### The load (R166, R178, R179) -/

/-- An erased word reads as all ones (R166). -/
def erasedWord : BitVec 32 := 0xFFFFFFFF

/-- A field of a word: its default while the word is erased, else what the word holds (R166). -/
def loadField {α : Type} (word : BitVec 32) (default stored : α) : α := if word = erasedWord then default else stored

/-- A numeric field of `n` bits at bit `lo`, clamped into its range (R179). -/
def loadNumber (word : BitVec 32) (lo n default least most : Nat) : Nat :=
  loadField word default (clampNat (bits word.toNat lo n) least most)

/-- A one-bit field. -/
def loadFlag (word : BitVec 32) (lo : Nat) (default : Bool) : Bool :=
  loadField word default (bits word.toNat lo 1 == 1)

/-- One entry for each port. -/
def perPort {α : Type} (f : Nat → α) : Vector α 12 :=
  #v[f 0, f 1, f 2, f 3, f 4, f 5, f 6, f 7, f 8, f 9, f 10, f 11]

/-- The asymmetry correction of a port: two ports a word, signed 13-bit (Table 34). -/
def loadAsymmetry (word : BitVec 32) (p : Nat) : Int :=
  loadField word 0 (signedBits word.toNat (16 * (p % 2)) 13)

/-- The working settings that the store gives (R166, Tables 25 and 34); the beat exponent and the pins stand
apart. -/
def loadSettings (w : Vector (BitVec 32) 24) : Settings where
  rackIdentity := w[0]
  enable := perPort (fun p => loadFlag w[1] p true)
  frameWrite := loadFlag w[1] 16 false
  echoExp := loadNumber w[2] 8 4 6 4 8
  promptCount := loadNumber w[2] 16 7 16 1 64
  gate := loadNumber w[3] 0 12 512 16 4095
  slew := loadNumber w[3] 16 8 8 1 255
  orphanHold := loadNumber w[4] 0 16 64 1 65535
  drainLimit := loadNumber w[4] 16 12 16 1 4095
  holdLimit := loadNumber w[5] 0 8 2 1 255
  joinLimit := loadNumber w[5] 16 12 64 8 4095
  holdoverLimit := loadNumber w[6] 0 16 4096 16 65535
  refinEnable := loadFlag w[7] 0 false
  refinClass := loadNumber w[7] 4 2 0 0 3
  localTrim := loadField w[7] 0 (clampInt (signedBits w[7].toNat 16 12) (-2047) 2047)
  ranked := perPort (fun p => loadFlag w[8] p false)
  defaultLatency := loadNumber w[9] 0 16 1024 64 65535
  defaultHoldoff := loadNumber w[9] 16 16 0 0 65535
  asymmetry := #v[loadAsymmetry w[10] 0, loadAsymmetry w[10] 1, loadAsymmetry w[11] 2, loadAsymmetry w[11] 3,
    loadAsymmetry w[12] 4, loadAsymmetry w[12] 5, loadAsymmetry w[13] 6, loadAsymmetry w[13] 7,
    loadAsymmetry w[14] 8, loadAsymmetry w[14] 9, loadAsymmetry w[15] 10, loadAsymmetry w[15] 11]

/-- The beat exponent that the store gives at power-on (R79, R166). -/
def loadBeatExp (w : Vector (BitVec 32) 24) : Nat := loadNumber w[2] 0 5 13 10 16

/-- Mode and polarity of a pin code; the codes 6 and 7 give OFF with polarity RISE or HIGH, 0 (R179). -/
def pinCode : Nat → PinMode × Nat
  | 1 => (.input, 0) | 2 => (.input, 1) | 3 => (.input, 2)
  | 4 => (.output, 0) | 5 => (.output, 1)
  | _ => (.off, 0)

/-- A pin as the store and its wire start it (R148, R153, R178; notes/assumptions/16.md on the line beside a code 6 or
7). Table 34 gives byte i of words 16 and 17 to TRIGi and does not number the bytes of a word; that byte i stands at bits
8i+7 to 8i is the model's choice (DESIGN CHOICE, notes/assumptions/34.md). -/
def loadPin (w : Vector (BitVec 32) 24) (i : Nat) (wire : Bool) : Pin :=
  let (mode, polarity) := loadField w[16] (.off, 0) (pinCode (bits w[16].toNat (8 * i) 3))
  let line : LineIx := Fin.ofNat 32 (loadNumber w[16] (8 * i + 3) 5 0 0 31)
  Pin.initial mode polarity line (loadNumber w[17] (8 * i) 8 16 1 255) wire

/-- All four pins. -/
def loadPins (w : Vector (BitVec 32) 24) (wire : Nat → Bool) : Vector Pin 4 :=
  #v[loadPin w 0 (wire 0), loadPin w 1 (wire 1), loadPin w 2 (wire 2), loadPin w 3 (wire 3)]

/-- Whether the store is protected (R166, R179). -/
def Setup.isProtected (u : Setup) : Bool := u.words[23] != erasedWord && u.words[23].getLsbD 0

def modSetup (f : Setup → Setup) (s : State) : State := { s with setup := f s.setup }

/-! ### SETUP READ, SETUP WRITE, SETUP CLEAR (R167 to R169) -/

/-- SETUP READ (R167). -/
def ownSetupRead (o : Origin) (args : List Byte) (s : State) : State :=
  let first := field args 0 1
  let count := field args 1 1
  if args.length ≠ 2 ∨ count = 0 ∨ 12 < count ∨ 24 < first + count then refuse o .badArg s
  else if s.setup.operation.isSome then refuse o .busy s
  else answer o .done (((s.setup.words.toList.drop first).take count).flatMap (fun w => be 4 w.toNat)) s

/-- The completion time of an operation of `ticks` ticks of rack time (R168, R169). -/
def State.completionAfter (s : State) (ticks : Nat) : Stamp := s.now + BitVec.ofNat 64 (ticks * Config.subTicks)

/-- SETUP WRITE (R168). Accepted, the order stays RUNNING. -/
def ownSetupWrite (o : Origin) (args : List Byte) (s : State) : State :=
  match index? 24 (field args 0 1) with
  | none => refuse o .badArg s
  | some w =>
    if args.length ≠ 5 then refuse o .badArg s
    else if s.setup.operation.isSome then refuse o .busy s
    else if w.val ≤ 22 ∧ s.setup.isProtected then refuse o .isProtected s
    else if s.setup.words[w] ≠ erasedWord then refuse o .conflict s
    else modSetup (fun u => { u with
      operation := some ⟨some (w, BitVec.ofNat 32 (field args 1 4)), o, s.completionAfter Config.writeTicks⟩ }) s

/-- SETUP CLEAR (R169). From the event in which it is taken every word reads as erased. -/
def ownSetupClear (o : Origin) (args : List Byte) (s : State) : State :=
  if args.length ≠ 0 then refuse o .badArg s
  else if s.setup.operation.isSome then refuse o .busy s
  else modSetup (fun _ => ⟨Vector.replicate 24 erasedWord, some ⟨none, o, s.completionAfter Config.clearTicks⟩⟩) s

/-- DONE to an order that still runs in its origin's slot (R161, R168, R169). While an operation is in progress every
other setup order is refused at once, so a RUNNING order with the operation's code is its own. -/
def answerRunning (o : Origin) (code : OrderCode) (s : State) : State :=
  match (s.origin o).bind (·.slot) with
  | some slot => if slot.code = code.byte then answer o .done [] s else s
  | none => s

/-- Rack time reaches the completion time of a write (R168). -/
def completeWrite (s : State) : State :=
  match s.setup.operation with
  | some ⟨some (w, value), o, due⟩ =>
    if reached s.now due then
      s |> modSetup (fun u => ⟨u.words.set w value, none⟩) |> answerRunning o .setupWrite
    else s
  | _ => s

/-- Rack time reaches the completion time of a clear (R169). -/
def completeClear (s : State) : State :=
  match s.setup.operation with
  | some ⟨none, o, due⟩ =>
    if reached s.now due then
      s |> modSetup (fun _ => ⟨Vector.replicate 24 erasedWord, none⟩) |> answerRunning o .setupClear
    else s
  | _ => s

/-! ### SET PARAM (R170) -/

/-- The parameters of Table 26. -/
inductive Parameter where
  | portEnable | frameWrite | gate | slew | promptCount | echoExp | asymmetry | localTrim
  | refinEnable | refinClass | holdoverLimit | orphanHold | drainLimit | joinLimit | holdLimit | egressMode
  deriving DecidableEq, Repr

/-- The parameter of a code (Table 30). -/
def parameter? : Nat → Option Parameter
  | 0x01 => some .portEnable | 0x02 => some .frameWrite | 0x03 => some .gate | 0x04 => some .slew
  | 0x05 => some .promptCount | 0x06 => some .echoExp | 0x07 => some .asymmetry | 0x08 => some .localTrim
  | 0x09 => some .refinEnable | 0x0A => some .refinClass | 0x0B => some .holdoverLimit | 0x0C => some .orphanHold
  | 0x0D => some .drainLimit | 0x0E => some .joinLimit | 0x0F => some .holdLimit | 0x10 => some .egressMode
  | _ => none

def Parameter.isPerPort : Parameter → Bool
  | .portEnable | .asymmetry | .egressMode => true
  | _ => false

/-- A flag or an egress mode, whose value is 0 or 1; the others are clamped. -/
def Parameter.isCoded : Parameter → Bool
  | .portEnable | .frameWrite | .refinEnable | .egressMode => true
  | _ => false

/-- The range of a parameter (Table 25). -/
def Parameter.range : Parameter → Int × Int
  | .gate => (16, 4095) | .slew => (1, 255) | .promptCount => (1, 64) | .echoExp => (4, 8)
  | .asymmetry => (-4096, 4095) | .localTrim => (-2047, 2047) | .refinClass => (0, 3)
  | .holdoverLimit => (16, 65535) | .orphanHold => (1, 65535) | .drainLimit => (1, 4095)
  | .joinLimit => (8, 4095) | .holdLimit => (1, 255)
  | .portEnable | .frameWrite | .refinEnable | .egressMode => (0, 1)

/-- A working setting takes a value in its range, and its owning rule acts on it (Table 26). -/
def setParameter (x : Parameter) (p : PortIx) (v : Int) (s : State) : State :=
  let n := v.toNat
  match x with
  | .portEnable => setEnable p (v == 1) s
  | .frameWrite => modSettings (fun w => { w with frameWrite := v == 1 }) s
  | .gate => modSettings (fun w => { w with gate := n }) s
  | .slew => modSettings (fun w => { w with slew := n }) s
  | .promptCount => modSettings (fun w => { w with promptCount := n }) s
  | .echoExp => modSettings (fun w => { w with echoExp := n }) s
  | .asymmetry => modSettings (fun w => { w with asymmetry := w.asymmetry.set p v }) s
  | .localTrim =>
    let s := modSettings (fun w => { w with localTrim := v }) s
    if s.tb.state = .free then modTb (fun t => { t with trim := v, savedTrim := v }) s else s
  | .refinEnable => s |> modSettings (fun w => { w with refinEnable := v == 1 }) |> reselect .lost
  | .refinClass => s |> modSettings (fun w => { w with refinClass := n }) |> reselect .lost
  | .holdoverLimit => modSettings (fun w => { w with holdoverLimit := n }) s
  | .orphanHold => modSettings (fun w => { w with orphanHold := n }) s
  | .drainLimit => modSettings (fun w => { w with drainLimit := n }) s
  | .joinLimit => modSettings (fun w => { w with joinLimit := n }) s
  | .holdLimit => modSettings (fun w => { w with holdLimit := n }) s
  | .egressMode => modSettings (fun w => { w with ranked := w.ranked.set p (v == 1) }) s

/-- SET PARAM (R170). A reply to a frame that disables its own port goes with its queue (R40). -/
def ownSetParam (o : Origin) (args : List Byte) (s : State) : State :=
  let code := field args 0 1
  if args.length ≠ 6 then refuse o .badArg s
  else if code = 0x20 ∨ code = 0x21 then refuse o .notPermitted s
  else match parameter? code with
    | none => refuse o .badArg s
    | some x =>
      let port := if x.isPerPort then port? (field args 1 1) else some 0
      match port with
      | none => refuse o .badArg s
      | some p =>
        let given : Int := (BitVec.ofNat 32 (field args 2 4)).toInt
        if x.isPerPort ∧ foreignPort o p then refuse o .notPermitted s
        else if x.isCoded ∧ given ≠ 0 ∧ given ≠ 1 then refuse o .badArg s
        else
          let v := clampInt given x.range.1 x.range.2
          s |> answer o .done (beInt 4 v) |> setParameter x p v

end Sys2Proof.Machine
end

