-- ==== Sys2Proof/Machine/Power.lean ====
section
/-! DEFINITION. Power-on, RESETN low, and hub restart with its completion
(R44, R60, R82, R83, R105, R118, R137, R153, R165, R171, R172). -/

namespace Sys2Proof.Machine

/-! ### Power-on (R171) -/

/-- A port controller after power-on: LISTENING where it is present and enabled, else VACANT (R19, R44). -/
def Port.powerOn (present enabled : Bool) : Port :=
  let x := Port.initial present
  if present && enabled then { x with state := .listening } else x

/-- The power-on event: the store is read into the working settings, rack time is 0, every block is in its power-on
state, enabled present ports are LISTENING. `present` are the PRESENT pins, `wires` the trigger pins. A setup
operation in progress is abandoned: its words read as erased already (R168, R169). -/
def powerOn (present : BitVec 12) (wires : BitVec 4) (s : State) : State :=
  let words := s.setup.words
  let settings := loadSettings words
  { State.reset with
    clock := { State.reset.clock with increment := (16777216 + settings.localTrim).toNat }
    ports := perPort (fun p => Port.powerOn (present.getLsbD p) (loadFlag words[1] p true))
    lines := Vector.replicate 32 (.initial settings.defaultLatency settings.defaultHoldoff)
    pins := loadPins words (fun i => wires.getLsbD i)
    tb := .initial (loadBeatExp words) settings.localTrim
    settings := settings
    setup := ⟨words, none⟩
    freeReads := s.freeReads
    pending := s.pending }

/-- While RESETN is low every block is at rest: transmitters silent, OUT pins released, the service port deaf, a setup
operation abandoned, a pulse cut short (R151, R171). -/
def rest (s : State) : State :=
  { s with
    atRest := true
    setup := { s.setup with operation := none } }
    |> each allPorts (fun p => modEgress p (fun e => { e with flight := none }))
    |> each allPins (fun i => modPin i (fun x => { x with pulse := none }))
    |> modService (fun v => { v with transaction := .idle })

/-! ### Hub restart (R172) -/

/-- A stream within restart: DRAINING, without producer, deadlines or close order (R105). -/
def Stream.settle (r : Stream) : Stream :=
  { r with state := .draining, producer := none, orphanDeadline := none, drainDeadline := none, closeBy := none }

/-- Every port candidacy is withdrawn, and selection re-runs once, with no port left on the list (R65, R68, R82). -/
def withdrawPorts (s : State) : State :=
  if allPorts.any (fun p => (s.tb.candidates[p]).isSome) then
    s |> modTb (fun t => { t with candidates := Vector.replicate 12 none }) |> reselect .lost
  else s

/-- Every port not in VACANT takes the effect of its state under R37 and stands in VACANT; their teardowns withdraw every
port candidacy in the one event; every stream is settled and every tap removed (R44, R82, R105, R137, R172). -/
def settleHub (s : State) : State :=
  s |> withdrawPorts |> each allPorts (fun p s => if (s.ports[p]).state = .vacant then s else resetPort p true .reset s)
    |> each allStreams (fun st => modStream st Stream.settle)
    |> each allTaps removeTap

/-- Whether any parcel is in flight at the slot in which the last event fell. R172 does not say how soon the completion follows
the last TAIL; that the end of a parcel that brings no event of its own, at a cycle's second slot, is seen at the next
cycle, is the model's choice (DESIGN CHOICE, notes/assumptions/32.md). -/
def State.anyFlight (s : State) : Bool := allPorts.any (fun p => s.inFlight p s.slotNow)

/-- A port after the completion: counts and counters 0, LISTENING where present and enabled (R44). -/
def restartPort (p : PortIx) (s : State) : State :=
  let s := modPort p (fun x => { x with counters := PortCounters.zero, failures := 0, fillRun := 0 }) s
  if (s.ports[p]).presence && s.settings.enable[p] then enterState p .listening s
  else enterState p .vacant s

/-- The timebase in the completion: the reloaded REFIN fields change the candidate list, a reloaded local trim acts if
the timebase is then FREE, the counters are 0 (R82; notes/assumptions/21.md on the order). -/
def restartTimebase (s : State) : State :=
  let s := reselect .lost s
  modTb (fun t =>
    let t := if t.state = .free then { t with trim := s.settings.localTrim, savedTrim := s.settings.localTrim } else t
    { t with locks := 0, unlocks := 0, acquisitionFailures := 0, holdoverExpiries := 0 }) s

/-- S after the completion: the DONE of the RESTART HUB is the only entry of its queue (R165). -/
def OriginState.restarted (q : OriginState) : OriginState :=
  match q.slot with
  | some x => ⟨some { x with answer := some (.done, []) }, [.reply true x.ident x.code .done []], 0, false⟩
  | none => .initial

/-- A FETCH in progress goes on shifting out what it fixed; its entry is not removed again (R165). -/
def Transaction.restarted : Transaction → Transaction
  | .fetching filler bytes _ => .fetching filler bytes false
  | t => t

/-- The completion of a hub restart, in the steps of R172. R153 does not say which level is the first sample of a pin that the
hub drove as OUT until now and that the store makes IN; the last level given by PIN_EDGE or POWER_ON is the model's choice
(DESIGN CHOICE, notes/assumptions/28.md). -/
def completeRestart (s : State) : State :=
  let words := s.setup.words
  let settings := loadSettings words
  let s := { s with
    store := .initial
    streams := Vector.replicate 64 none
    taps := Vector.replicate 128 none
    settings := settings
    lines := Vector.replicate 32 (.initial settings.defaultLatency settings.defaultHoldoff)
    pins := loadPins words (fun i => (s.pins.toList.map (·.wire)).getD i false)
    delays := Vector.replicate 12 .initial
    egress := s.egress.map (fun e => { Egress.initial with lastStop := e.ended })
    triggers := Vector.replicate 12 .initial
    drainSets := Vector.replicate 12 []
    origins := Vector.replicate 12 none }
  let s := s |> restartTimebase |> each allPorts restartPort
  { s with
    service := ⟨s.service.origin.restarted, 0, s.service.transaction.restarted⟩
    posts := []
    restarting := false }

/-- The restart is completed once no parcel is in flight. -/
def tryComplete (s : State) : State :=
  if s.restarting && !s.anyFlight then completeRestart s else s

/-- RESTART HUB (R172). Accepted, it stays RUNNING to its completion. -/
def ownRestartHub (o : Origin) (args : List Byte) (s : State) : State :=
  if args.length ≠ 0 then refuse o .badArg s
  else { settleHub s with restarting := true } |> tryComplete

end Sys2Proof.Machine
end

