-- ==== Sys2Proof/Machine/TriggerOrders.lean ====
section
/-! DEFINITION. The owning rules of the orders on trigger lines and local pins (R139 to R141, R148, R152, R175). -/

namespace Sys2Proof.Machine

/-! ### Lines -/

/-- SET LINE (R139). A frame never reaches this rule. -/
def ownSetLine (o : Origin) (args : List Byte) (s : State) : State :=
  match line? (field args 0 1) with
  | none => refuse o .badArg s
  | some l =>
    if args.length ≠ 5 then refuse o .badArg s
    else
      let latency := clampNat (field args 1 2) 64 65535
      let holdoff := field args 3 2
      s |> modLine l (fun x => { x with latency := latency, holdoff := holdoff })
        |> answer o .done (be 2 latency ++ be 2 holdoff)

/-- The origin's port joins or leaves a line's subscriber ports (R140). -/
def subscribe (o : Origin) (args : List Byte) (member : Bool) (s : State) : State :=
  match o, line? (field args 0 1) with
  | .port p, some l =>
    if args.length ≠ 1 then refuse o .badArg s
    else s |> modLine l (fun x => { x with subscribers := x.subscribers.set p member }) |> answer o .done []
  | _, _ => refuse o .badArg s

/-- SUBSCRIBE LINE (R140). -/
def ownSubscribeLine (o : Origin) (args : List Byte) : State → State := subscribe o args true

/-- UNSUBSCRIBE LINE (R140). -/
def ownUnsubscribeLine (o : Origin) (args : List Byte) : State → State := subscribe o args false

/-- The result bytes of READ LINE (R141, Table 32). -/
def State.lineResult (s : State) (l : LineIx) : List Byte :=
  let x := s.lines[l]
  let pins := maskOf (s.pins.toList.map (·.subscribes l))
  be 2 x.latency ++ be 2 x.holdoff ++ be 2 (maskOf x.subscribers.toList) ++ be 1 (pins + bit x.last.isSome 7)
    ++ be 8 ((x.last.map (·.toNat)).getD 0) ++ [x.pendingMerged]
    ++ be 2 x.accepted.toNat ++ be 2 x.merged.toNat ++ be 2 x.late.toNat

/-- READ LINE (R141). -/
def ownReadLine (o : Origin) (args : List Byte) (s : State) : State :=
  match line? (field args 0 1) with
  | none => refuse o .badArg s
  | some l => if args.length ≠ 1 then refuse o .badArg s else answer o .done (s.lineResult l) s

/-! ### Pins -/

/-- A pin takes new settings (R148). An OUT pin that stays OUT with its line and polarity keeps its fire list and
its pulse; any other pin holds neither. A pin that enters IN takes the level on its wire as reference; where it comes from
OUT, R148 does not say whether the level sampled in the event is still the one the hub drove, and the last level given by
PIN_EDGE or POWER_ON is the model's choice (DESIGN CHOICE, notes/assumptions/28.md). -/
def Pin.reset (mode : PinMode) (polarity : Nat) (line : LineIx) (width : Nat) (x : Pin) : Pin :=
  let stays : Bool := x.mode == .output && mode == .output && x.line == line && x.polarity == polarity
  { x with
    mode := mode, polarity := polarity, line := line, width := width
    fires := if stays then x.fires else []
    pulse := if stays then x.pulse else none
    reference := if mode = .input ∧ x.mode ≠ .input then x.wire else x.reference }

/-- SET PIN (R148). A frame never reaches this rule. -/
def ownSetPin (o : Origin) (args : List Byte) (s : State) : State :=
  match pin? (field args 0 1), pinMode? (field args 1 1), line? (field args 3 1) with
  | some i, some mode, some l =>
    let polarity := field args 2 1
    let width := clampNat (field args 4 1) 1 255
    if args.length ≠ 5 ∨ !mode.admits polarity then refuse o .badArg s
    else s |> modPin i (Pin.reset mode polarity l width) |> answer o .done (be 1 width)
  | _, _, _ => refuse o .badArg s

/-- Whole ticks from the event to the end of the pulse in progress, 0 when there is none (R175): rounded up, as it
is 1 or more while the pulse lasts (notes/assumptions/11.md). -/
def State.pulseTicks (s : State) (x : Pin) : Nat :=
  match x.pulseAt s.now with
  | some q => min ((q.stop.toNat - s.now.toNat + 255) / 256) 255
  | none => 0

/-- The result bytes of READ PIN (R152, Table 32). -/
def State.pinResult (s : State) (i : PinIx) : List Byte :=
  let x := s.pins[i]
  let c := x.counters
  be 1 (bit (x.level s.now) 0 + 2 * x.mode.code + 8 * x.polarity + bit (x.pulseAt s.now).isSome 5)
    ++ be 1 (x.line.val + 32 * x.fires.length) ++ be 1 x.width ++ be 1 (s.pulseTicks x)
    ++ (x.fires.flatMap (fun (f : Stamp) => be 8 f.toNat) ++ List.replicate 32 0).take 32
    ++ [c.edges, c.fires, c.mergedFires, c.lateFires, c.overruns].flatMap (fun (n : Count) => be 2 n.toNat)

/-- READ PIN (R152). -/
def ownReadPin (o : Origin) (args : List Byte) (s : State) : State :=
  match pin? (field args 0 1) with
  | none => refuse o .badArg s
  | some i => if args.length ≠ 1 then refuse o .badArg s else answer o .done (s.pinResult i) s

end Sys2Proof.Machine
end

