-- ==== Sys2Proof/Machine/Orders.lean ====
section
/-! DEFINITION. The order engine: the tests that every order shares, and the order catalogue
(R155 to R157, R160, Table 24). -/

namespace Sys2Proof.Machine

/-! ### The shared tests -/

/-- Port state (R155, test 3): a frame's order passes in ACTIVE, and JOIN in JOINING. -/
def State.stateAllows (s : State) (o : Origin) (c : OrderCode) : Bool :=
  match o with
  | .service => true
  | .port p =>
    match (s.ports[p]).state with
    | .active => true
    | .joining => c == .join
    | _ => false

/-- Origin rights (R160). -/
def State.rightsAllow (s : State) (o : Origin) (c : OrderCode) : Bool :=
  match o with
  | .service => true
  | .port _ =>
    match c with
    | .setLine | .setPin | .restartHub => false
    | .setParam | .setupWrite | .setupClear => s.settings.frameWrite
    | _ => true

/-- An order discarded without a reply is counted at its origin (R157). -/
def countDiscarded : Origin → State → State
  | .port p => countStray p
  | .service => countDiscard

/-- An order taken while its origin's slot is not empty: answered BUSY at the tail of the queue, or discarded where the
queue holds a REPLY (R157). -/
def takeBusy (o : Origin) (ident code : Byte) (q : OriginState) (s : State) : State :=
  if q.hasReply then countDiscarded o s
  else modOrigin o (fun q => { q with queue := q.queue ++ [.reply false ident code .busy []] }) s

/-! ### The catalogue (Table 24) -/

/-- The rule that owns an order. -/
def ownOrder (c : OrderCode) (o : Origin) (args : List Byte) : State → State :=
  match c with
  | .join => ownJoin o args
  | .detach => ownDetach o args
  | .resetLink => ownResetLink o args
  | .readLink => ownReadLink o args
  | .proposeReference => ownProposeReference o args
  | .withdrawReference => ownWithdrawReference o args
  | .readTimebase => ownReadTimebase o args
  | .openStream => ownOpenStream o args
  | .closeStream => ownCloseStream o args
  | .findStream => ownFindStream o args
  | .readStream => ownReadStream o args
  | .addTap => ownAddTap o args
  | .alterTap => ownAlterTap o args
  | .dropTap => ownDropTap o args
  | .setLine => ownSetLine o args
  | .subscribeLine => ownSubscribeLine o args
  | .unsubscribeLine => ownUnsubscribeLine o args
  | .readLine => ownReadLine o args
  | .setPin => ownSetPin o args
  | .readPin => ownReadPin o args
  | .readStore => ownReadStore o args
  | .setParam => ownSetParam o args
  | .setupRead => ownSetupRead o args
  | .setupWrite => ownSetupWrite o args
  | .setupClear => ownSetupClear o args
  | .restartHub => ownRestartHub o args

/-- An order that names a code is judged on port state and rights, then by its owning rule. It occupies its origin's
slot from this event on (R155). -/
def decideOrder (c : OrderCode) (o : Origin) (ident : Byte) (args : List Byte) (s : State) : State :=
  let taken := occupySlot o ident c.byte s
  if !s.stateAllows o c then refuse o .notActive taken
  else if !s.rightsAllow o c then refuse o .notPermitted taken
  else ownOrder c o args taken

/-- The order engine takes an ORDER: the five tests of R155 in turn. An origin without a queue receives nothing
(R154). -/
def takeOrder (o : Origin) (ident code : Byte) (args : List Byte) (s : State) : State :=
  match s.origin o with
  | none => s
  | some q =>
    if q.slot.isSome then takeBusy o ident code q s
    else match OrderCode.ofByte code with
      | none => s |> occupySlot o ident code |> refuse o .unknown
      | some c => decideOrder c o ident args s

end Sys2Proof.Machine
end

