-- ==== Sys2Proof/Machine/Link.lean ====
section
/-! DEFINITION. The receive side of a link: received symbols, the receive framer, arrival and ingress dispatch
(R1, R4, R5, R8 to R11). -/

namespace Sys2Proof.Machine

/-! ### Ingress dispatch (R9, R10) -/

/-- A well-formed parcel is dispatched by its kind and the port state at arrival (Table 9). -/
def dispatch (p : PortIx) (x : Inbound) (s : State) : State :=
  let st := (s.ports[p]).state
  match x with
  | .echoBack number h => takeEchoBack p number h s
  | .samples tag sequence count stamp payload =>
    if st = .active then takeSamples p tag sequence count stamp payload s else countStray p s
  | .trigger line stamp => if st = .active then takeTrigger p line stamp s else countStray p s
  | .order ident code args =>
    if st = .training then countStray p s else takeOrder (.port p) ident code args s
  | .hubOnly => countStray p s

/-- An arrival lowers the error score by 1 and hands the parcel to dispatch; `none` is malformed (R5, R9). -/
def arrive (p : PortIx) (x : Option Inbound) (s : State) : State :=
  let s := modPort p (fun y => { y with score := y.score - 1 }) s
  match x with
  | some x => dispatch p x s
  | none => countMalformed p s

/-! ### The receive framer (Table 8) -/

def setFramer (p : PortIx) (mode : FramerMode) (buffer : List Byte) : State → State :=
  modPort p (fun x => { x with framer := ⟨mode, buffer⟩ })

/-- A TAIL taken in INSIDE: the collected bytes are judged (R5). -/
def judgeParcel (p : PortIx) (bytes : List Byte) (s : State) : State :=
  if bytes.length < 5 ∨ !checkPasses bytes then checkFailure p s else arrive p (Inbound.ofBytes bytes) s

/-- The receive framer takes a data, idle, delimiter or illegal symbol (R4, Table 8). -/
def takeFramer (p : PortIx) (symbol : Symbol) (s : State) : State :=
  let fr := (s.ports[p]).framer
  match fr.mode, symbol with
  | _, .hold | _, .go => s
  | .outside, .fill => s
  | .outside, .lead => setFramer p .inside [] s
  | .outside, .data _ | .outside, .tail | .outside, .illegal => raiseScore p s
  | .inside, .fill => s |> setFramer p .outside [] |> checkFailure p
  | .inside, .lead => s |> setFramer p .inside [] |> checkFailure p
  | .inside, .data b =>
    if fr.buffer.length < Config.longestParcel then setFramer p .inside (fr.buffer ++ [b]) s
    else s |> setFramer p .skip [] |> checkFailure p
  | .inside, .tail => s |> setFramer p .outside [] |> judgeParcel p fr.buffer
  | .inside, .illegal => s |> setFramer p .skip [] |> checkFailure p
  | .skip, .fill | .skip, .tail => setFramer p .outside [] s
  | .skip, .lead => setFramer p .inside [] s
  | .skip, .data _ => s
  | .skip, .illegal => raiseScore p s

/-! ### Received symbols (R1) -/

/-- The receive time of a received symbol is recorded, in every port state (R1). -/
def recordReceipt (p : PortIx) (s : State) : State := modPort p (fun x => { x with lastReceived := s.now }) s

/-- The silence measurement restarts (R8). -/
def restartSilence (p : PortIx) (s : State) : State := modPort p (fun x => { x with silenceSince := s.clock.cycle }) s

/-- A received symbol slot of the selected reference counts towards the next comparison edge (R64;
notes/assumptions/13.md). -/
def countSlot (p : PortIx) (s : State) : State :=
  if s.isReference (.port p) then countEdge Config.slotsPerComparison s else s

/-- A received symbol: its receive time is recorded; by port state it is then ignored, handed to fill-run counting, or taken
as a flow symbol or by the framer (R1). -/
def receiveSymbol (p : PortIx) (symbol : Symbol) (f : Fraction) (s : State) : State :=
  let s := s |> at_ f |> recordReceipt p
  let st := (s.ports[p]).state
  if st.framerRuns then
    let s := s |> restartSilence p |> countSlot p
    match symbol with
    | .hold => takeHold p s
    | .go => takeGo p s
    | _ => takeFramer p symbol s
  else if st = .listening then
    s |> restartSilence p |> countFill p symbol
  else s

/-! ### Parcels and orders given by their fields -/

/-- A parcel given by its fields arrives on a port: the event of its TAIL (R5), whose bytes the framer has collected
and found good. Where no framer runs no parcel arrives. -/
def receiveParcel (p : PortIx) (x : Inbound) (f : Fraction) (s : State) : State :=
  let s := at_ f s
  if (s.ports[p]).state.framerRuns then
    s |> recordReceipt p |> restartSilence p |> arrive p (if x.inRange then some x else none)
  else s

/-- An order given by its fields arrives at the order engine: on its link, or as a SEND of the service port
(R155, R162). -/
def receiveOrder (c : OrderCode) (o : Origin) (ident : Byte) (args : List Byte) (f : Fraction) (s : State) : State :=
  match o with
  | .port p => receiveParcel p (.order ident c.byte args) f s
  | .service =>
    let s := at_ f s
    if args.length ≤ 32 then takeOrder .service ident c.byte args s else countDiscard s

end Sys2Proof.Machine
end

