-- ==== Sys2Proof/Machine/LinkCommands.lean ====
section
/-! DEFINITION. The commands of the receive side of a link and of the echo exchange. -/

namespace Sys2Proof.Machine

/-- RECEIVED_SYMBOL (R1, R4, R20). -/
def execReceivedSymbol (p : PortIx) (symbol : Symbol) (f : Fraction) (s : State) : Host.Outcome State Fault Refusal :=
  event (receiveSymbol p symbol f) s

/-- HOLD (R11). -/
def execHold (p : PortIx) (f : Fraction) (s : State) : Host.Outcome State Fault Refusal :=
  event (receiveSymbol p .hold f) s

/-- GO (R11). -/
def execGo (p : PortIx) (f : Fraction) (s : State) : Host.Outcome State Fault Refusal :=
  event (receiveSymbol p .go f) s

/-- SILENCE: 256 ticks without a received symbol (R8, R20). -/
def execSilence (p : PortIx) (s : State) : Host.Outcome State Fault Refusal :=
  event (takeSilence p) s

/-- SAMPLES_INBOUND: an inbound SAMPLES parcel arrives (R90 to R93). -/
def execSamplesInbound (p : PortIx) (tag : Byte) (sequence count : BitVec 16) (stamp : Stamp)
    (payload : List Byte) (s : State) : Host.Outcome State Fault Refusal :=
  event (receiveParcel p (.samples tag sequence count stamp payload) 0) s

/-- TRIGGER_INBOUND: an inbound TRIGGER parcel arrives (R142 to R146). -/
def execTriggerInbound (p : PortIx) (line : Byte) (stamp : Stamp) (f : Fraction) (s : State) : Host.Outcome State Fault Refusal :=
  event (receiveParcel p (.trigger line stamp) f) s

/-- ECHO_BACK: an ECHO-BACK parcel arrives (R46). -/
def execEchoBack (p : PortIx) (number : Byte) (h : BitVec 24) (f : Fraction) (s : State) : Host.Outcome State Fault Refusal :=
  event (receiveParcel p (.echoBack number h) f) s

/-- ECHO_ANSWER_EXPIRY (R47). -/
def execEchoAnswerExpiry (p : PortIx) (s : State) : Host.Outcome State Fault Refusal :=
  event (expireEcho p) s


end Sys2Proof.Machine
end

