-- ==== Sys2Proof/Machine/OrderCommands.lean ====
section
/-! DEFINITION. The orders of Table 24, each arriving from an origin with its ident and argument bytes (R155). -/

namespace Sys2Proof.Machine

/-- JOIN (R26, R27). -/
def execJoin (o : Origin) (ident : Byte) (args : List Byte) (f : Fraction) (s : State) : Host.Outcome State Fault Refusal :=
  event (receiveOrder .join o ident args f) s

/-- DETACH (R31, R32). -/
def execDetach (o : Origin) (ident : Byte) (args : List Byte) (f : Fraction) (s : State) : Host.Outcome State Fault Refusal :=
  event (receiveOrder .detach o ident args f) s

/-- RESET LINK (R36, R37). -/
def execResetLink (o : Origin) (ident : Byte) (args : List Byte) (f : Fraction) (s : State) : Host.Outcome State Fault Refusal :=
  event (receiveOrder .resetLink o ident args f) s

/-- READ LINK (R43). -/
def execReadLink (o : Origin) (ident : Byte) (args : List Byte) (f : Fraction) (s : State) : Host.Outcome State Fault Refusal :=
  event (receiveOrder .readLink o ident args f) s

/-- PROPOSE REFERENCE (R64). -/
def execProposeReference (o : Origin) (ident : Byte) (args : List Byte) (f : Fraction) (s : State) : Host.Outcome State Fault Refusal :=
  event (receiveOrder .proposeReference o ident args f) s

/-- WITHDRAW REFERENCE (R65). -/
def execWithdrawReference (o : Origin) (ident : Byte) (args : List Byte) (f : Fraction) (s : State) : Host.Outcome State Fault Refusal :=
  event (receiveOrder .withdrawReference o ident args f) s

/-- READ TIMEBASE (R81). -/
def execReadTimebase (o : Origin) (ident : Byte) (args : List Byte) (f : Fraction) (s : State) : Host.Outcome State Fault Refusal :=
  event (receiveOrder .readTimebase o ident args f) s

/-- OPEN STREAM (R85 to R87). -/
def execOpenStream (o : Origin) (ident : Byte) (args : List Byte) (f : Fraction) (s : State) : Host.Outcome State Fault Refusal :=
  event (receiveOrder .openStream o ident args f) s

/-- CLOSE STREAM (R94, R95). -/
def execCloseStream (o : Origin) (ident : Byte) (args : List Byte) (f : Fraction) (s : State) : Host.Outcome State Fault Refusal :=
  event (receiveOrder .closeStream o ident args f) s

/-- FIND STREAM (R88). -/
def execFindStream (o : Origin) (ident : Byte) (args : List Byte) (f : Fraction) (s : State) : Host.Outcome State Fault Refusal :=
  event (receiveOrder .findStream o ident args f) s

/-- READ STREAM (R89). -/
def execReadStream (o : Origin) (ident : Byte) (args : List Byte) (f : Fraction) (s : State) : Host.Outcome State Fault Refusal :=
  event (receiveOrder .readStream o ident args f) s

/-- ADD TAP (R120, R121). -/
def execAddTap (o : Origin) (ident : Byte) (args : List Byte) (f : Fraction) (s : State) : Host.Outcome State Fault Refusal :=
  event (receiveOrder .addTap o ident args f) s

/-- ALTER TAP (R128). -/
def execAlterTap (o : Origin) (ident : Byte) (args : List Byte) (f : Fraction) (s : State) : Host.Outcome State Fault Refusal :=
  event (receiveOrder .alterTap o ident args f) s

/-- DROP TAP (R130). -/
def execDropTap (o : Origin) (ident : Byte) (args : List Byte) (f : Fraction) (s : State) : Host.Outcome State Fault Refusal :=
  event (receiveOrder .dropTap o ident args f) s

/-- SET LINE (R139). -/
def execSetLine (o : Origin) (ident : Byte) (args : List Byte) (f : Fraction) (s : State) : Host.Outcome State Fault Refusal :=
  event (receiveOrder .setLine o ident args f) s

/-- SUBSCRIBE LINE (R140). -/
def execSubscribeLine (o : Origin) (ident : Byte) (args : List Byte) (f : Fraction) (s : State) : Host.Outcome State Fault Refusal :=
  event (receiveOrder .subscribeLine o ident args f) s

/-- UNSUBSCRIBE LINE (R140). -/
def execUnsubscribeLine (o : Origin) (ident : Byte) (args : List Byte) (f : Fraction) (s : State) : Host.Outcome State Fault Refusal :=
  event (receiveOrder .unsubscribeLine o ident args f) s

/-- READ LINE (R141). -/
def execReadLine (o : Origin) (ident : Byte) (args : List Byte) (f : Fraction) (s : State) : Host.Outcome State Fault Refusal :=
  event (receiveOrder .readLine o ident args f) s

/-- SET PIN (R148). -/
def execSetPin (o : Origin) (ident : Byte) (args : List Byte) (f : Fraction) (s : State) : Host.Outcome State Fault Refusal :=
  event (receiveOrder .setPin o ident args f) s

/-- READ PIN (R152). -/
def execReadPin (o : Origin) (ident : Byte) (args : List Byte) (f : Fraction) (s : State) : Host.Outcome State Fault Refusal :=
  event (receiveOrder .readPin o ident args f) s

/-- READ STORE (R117). -/
def execReadStore (o : Origin) (ident : Byte) (args : List Byte) (f : Fraction) (s : State) : Host.Outcome State Fault Refusal :=
  event (receiveOrder .readStore o ident args f) s

/-- SET PARAM (R170). -/
def execSetParam (o : Origin) (ident : Byte) (args : List Byte) (f : Fraction) (s : State) : Host.Outcome State Fault Refusal :=
  event (receiveOrder .setParam o ident args f) s

/-- SETUP READ (R167). -/
def execSetupRead (o : Origin) (ident : Byte) (args : List Byte) (f : Fraction) (s : State) : Host.Outcome State Fault Refusal :=
  event (receiveOrder .setupRead o ident args f) s

/-- SETUP WRITE (R168). -/
def execSetupWrite (o : Origin) (ident : Byte) (args : List Byte) (f : Fraction) (s : State) : Host.Outcome State Fault Refusal :=
  event (receiveOrder .setupWrite o ident args f) s

/-- SETUP CLEAR (R169). -/
def execSetupClear (o : Origin) (ident : Byte) (args : List Byte) (f : Fraction) (s : State) : Host.Outcome State Fault Refusal :=
  event (receiveOrder .setupClear o ident args f) s

/-- RESTART HUB (R172). -/
def execRestartHub (o : Origin) (ident : Byte) (args : List Byte) (f : Fraction) (s : State) : Host.Outcome State Fault Refusal :=
  event (receiveOrder .restartHub o ident args f) s


end Sys2Proof.Machine
end

