-- ==== Sys2Proof/Machine/PowerCommands.lean ====
section
/-! DEFINITION. The commands of power, presence and restart. -/

namespace Sys2Proof.Machine

/-- POWER_ON (R171). It is taken at rest and while the hub runs alike. -/
def execPowerOn (present : BitVec 12) (wires : BitVec 4) (s : State) : Host.Outcome State Fault Refusal := .next (powerOn present wires s)

/-- RESETN_LOW (R171). -/
def execResetnLow (s : State) : Host.Outcome State Fault Refusal := .next (rest s)

/-- PRESENCE_CHANGE: the PRESENT pin stands at a level that it has held for `held` ticks; where its filter is due the filtered
presence changes (R18, R19). -/
def execPresenceChange (p : PortIx) (level : Bool) (held : Nat) (s : State) : Host.Outcome State Fault Refusal :=
  event (changePresence p level held) s

/-- RESTART_COMPLETION (R172). -/
def execRestartCompletion (s : State) : Host.Outcome State Fault Refusal :=
  event tryComplete s


end Sys2Proof.Machine
end

