-- ==== Sys2Proof/Machine/ServicePort.lean ====
section
/-! DEFINITION. The service port: SEND, FETCH and the end of a transaction (R162 to R164, R179). -/

namespace Sys2Proof.Machine

/-- Lead bytes and the FILL byte (R179). -/
def leadSend : Byte := 0xA5
def leadFetch : Byte := 0x5A
def fillByte : Byte := 0xFF

def setTransaction (t : Transaction) : State → State := modService (fun v => { v with transaction := t })

/-- A complete SEND parcel is judged: check, kind and length (R162). -/
def judgeSend (bytes : List Byte) (s : State) : State :=
  if checkPasses bytes then
    match Inbound.ofBytes bytes with
    | some (.order ident code args) => takeOrder .service ident code args s
    | _ => countDiscard s
  else countDiscard s

/-- Whether the collected bytes are the whole parcel: their number is the length field plus 5 (R162). -/
def sendComplete (bytes : List Byte) : Bool := 3 ≤ bytes.length && bytes.length == field bytes 1 2 + 5

/-- A byte shifted in. The first of a transaction is its lead byte: SEND, or one that makes the rest ignored; a
FETCH lead byte fixes what is sent (R163). -/
def takeByte (b : Byte) (s : State) : State :=
  match s.service.transaction with
  | .idle =>
    if b = leadSend then setTransaction (.sending []) s
    else if b = leadFetch then
      let head := s.service.origin.queue.head?
      setTransaction (.fetching s.service.discards ((head.map Entry.bytes).getD []) head.isSome) s
    else setTransaction .ignored s
  | .sending collected =>
    let bytes := collected ++ [b]
    if sendComplete bytes then s |> setTransaction .ignored |> judgeSend bytes
    else setTransaction (.sending bytes) s
  | .ignored | .fetching .. => s

/-- Bytes shifted in, in order. -/
def takeBytes (bytes : List Byte) (s : State) : State := each bytes takeByte s

/-- The FETCH lead byte: at the start of a transaction it fixes the filler byte and the head entry (R163). -/
def takeFetch (s : State) : State := if s.service.transaction = .idle then takeByte leadFetch s else s

/-- What a FETCH shifts out: the filler byte, the entry it fixed or the FILL byte, then FILL (R163). A SEND, or a
transaction with another lead byte, shifts out FILL (R162). -/
def Service.shiftsOut (v : Service) (i : Nat) : Byte :=
  match v.transaction with
  | .fetching filler bytes _ => (filler :: bytes).getD i fillByte
  | _ => fillByte

/-- The filler byte has been shifted out: the discard count returns to 0 (R163). -/
def fillerOut (s : State) : State :=
  match s.service.transaction with
  | .fetching .. => modService (fun v => { v with discards := 0 }) s
  | _ => s

/-- The last check byte of the head entry has been shifted out: the entry leaves the queue if it is still the head
(R163). The rest of the transaction shifts FILL. -/
def completeFetch (s : State) : State :=
  match s.service.transaction with
  | .fetching _ _ live =>
    let s := setTransaction .ignored s
    if live then modOrigin .service .pop s else s
  | _ => s

/-- Chip select rises: the transaction ends; a parcel not yet complete is abandoned without counting (R162). -/
def endTransaction (s : State) : State := setTransaction .idle s

end Sys2Proof.Machine
end

