-- ==== Sys2Proof/Machine/ServiceCommands.lean ====
section
/-! DEFINITION. The commands of the service port, and the completions of the setup store. -/

namespace Sys2Proof.Machine

/-- SETUP_WRITE_COMPLETION (R168). -/
def execSetupWriteCompletion (s : State) : Host.Outcome State Fault Refusal :=
  event completeWrite s

/-- SETUP_CLEAR_COMPLETION (R169). -/
def execSetupClearCompletion (s : State) : Host.Outcome State Fault Refusal :=
  event completeClear s

/-- SEND: bytes shifted into the service port, from the lead byte on (R162; notes/assumptions/18.md). -/
def execSend (bytes : List Byte) (f : Fraction) (s : State) : Host.Outcome State Fault Refusal :=
  event (fun s => s |> at_ f |> takeBytes bytes) s

/-- FETCH: the FETCH lead byte (R163). -/
def execFetch (f : Fraction) (s : State) : Host.Outcome State Fault Refusal :=
  event (fun s => s |> at_ f |> takeFetch) s

/-- FETCH_COMPLETION: the last check byte of the head entry has been shifted out (R163). -/
def execFetchCompletion (s : State) : Host.Outcome State Fault Refusal :=
  event completeFetch s

/-- CHIP_SELECT_RISING (R162, R163). -/
def execChipSelectRising (s : State) : Host.Outcome State Fault Refusal :=
  event endTransaction s

/-- FILLER_BYTE_SHIFTED_OUT (R163). -/
def execFillerByteShiftedOut (s : State) : Host.Outcome State Fault Refusal :=
  event fillerOut s


end Sys2Proof.Machine
end

