-- ==== Sys2Proof/Machine/TimeCommands.lean ====
section
/-! DEFINITION. The commands of the reference and of the local trigger pins. -/

namespace Sys2Proof.Machine

/-- REFIN_EDGE: a rising edge of REFIN (R63, R66). -/
def execRefinEdge (f : Fraction) (s : State) : Host.Outcome State Fault Refusal :=
  event (fun s => s |> at_ f |> takeRefinEdge) s

/-- REFIN_ABSENCE: 1024 ticks without a rising edge of REFIN (R63). -/
def execRefinAbsence (s : State) : Host.Outcome State Fault Refusal :=
  event takeRefinAbsence s

/-- COMPARISON: a comparison edge of the selected reference (R71 to R75). -/
def execComparison (f : Fraction) (s : State) : Host.Outcome State Fault Refusal :=
  event (fun s => s |> at_ f |> compareEdge) s

/-- EDGE_ABSENCE: 3000 ticks without a comparison edge (R73). -/
def execEdgeAbsence (s : State) : Host.Outcome State Fault Refusal :=
  event takeEdgeAbsence s

/-- PIN_EDGE: a trigger pin is sampled at a level (R149). -/
def execPinEdge (pin : PinIx) (level : Bool) (s : State) : Host.Outcome State Fault Refusal :=
  event (samplePin pin level) s

/-- PIN_FIRE: rack time has reached a fire moment (R151). -/
def execPinFire (pin : PinIx) (s : State) : Host.Outcome State Fault Refusal :=
  event (firePin pin) s

/-- PULSE_END: rack time has reached the end of a pulse (R151). -/
def execPulseEnd (pin : PinIx) (s : State) : Host.Outcome State Fault Refusal :=
  event (endPulse pin) s


end Sys2Proof.Machine
end

