-- ==== Sys2Proof/Machine/Dispatch.lean ====
section
/-! DEFINITION. One arm for each command. -/

namespace Sys2Proof.Machine

/-- The effect of a command on everything but the queue. -/
def exec (i : Instr) (s : State) : Host.Outcome State Fault Refusal :=
  match i with
  | .powerOn present wires => Sys2Proof.Machine.execPowerOn present wires s
  | .resetnLow => Sys2Proof.Machine.execResetnLow s
  | .presenceChange p level held => Sys2Proof.Machine.execPresenceChange p level held s
  | .receivedSymbol p symbol f => Sys2Proof.Machine.execReceivedSymbol p symbol f s
  | .hold p f => Sys2Proof.Machine.execHold p f s
  | .go p f => Sys2Proof.Machine.execGo p f s
  | .silence p => Sys2Proof.Machine.execSilence p s
  | .freeBoundary p second => Sys2Proof.Machine.execFreeBoundary p second s
  | .beatLaunch p second => Sys2Proof.Machine.execBeatLaunch p second s
  | .echoLaunch p second => Sys2Proof.Machine.execEchoLaunch p second s
  | .triggerLaunch p second => Sys2Proof.Machine.execTriggerLaunch p second s
  | .noticeReplyLaunch p second => Sys2Proof.Machine.execNoticeReplyLaunch p second s
  | .samplesLaunch p second => Sys2Proof.Machine.execSamplesLaunch p second s
  | .samplesTail p => Sys2Proof.Machine.execSamplesTail p s
  | .drainEnd st => Sys2Proof.Machine.execDrainEnd st s
  | .farewellQueued p => Sys2Proof.Machine.execFarewellQueued p s
  | .farewellTail p => Sys2Proof.Machine.execFarewellTail p s
  | .echoBack p number h f => Sys2Proof.Machine.execEchoBack p number h f s
  | .echoAnswerExpiry p => Sys2Proof.Machine.execEchoAnswerExpiry p s
  | .beatDue => Sys2Proof.Machine.execBeatDue s
  | .enterActive p => Sys2Proof.Machine.execEnterActive p s
  | .joinLimitExpiry p => Sys2Proof.Machine.execJoinLimitExpiry p s
  | .holdLimitExpiry p => Sys2Proof.Machine.execHoldLimitExpiry p s
  | .startBeat st => Sys2Proof.Machine.execStartBeat st s
  | .orphanHoldExpiry st => Sys2Proof.Machine.execOrphanHoldExpiry st s
  | .drainDeadlineExpiry st => Sys2Proof.Machine.execDrainDeadlineExpiry st s
  | .stagedAlteration t => Sys2Proof.Machine.execStagedAlteration t s
  | .holdoverExpiry => Sys2Proof.Machine.execHoldoverExpiry s
  | .refinEdge f => Sys2Proof.Machine.execRefinEdge f s
  | .refinAbsence => Sys2Proof.Machine.execRefinAbsence s
  | .comparison f => Sys2Proof.Machine.execComparison f s
  | .edgeAbsence => Sys2Proof.Machine.execEdgeAbsence s
  | .samplesInbound p tag sequence count stamp payload => Sys2Proof.Machine.execSamplesInbound p tag sequence count stamp payload s
  | .triggerInbound p line stamp f => Sys2Proof.Machine.execTriggerInbound p line stamp f s
  | .pinEdge pin level => Sys2Proof.Machine.execPinEdge pin level s
  | .pinFire pin => Sys2Proof.Machine.execPinFire pin s
  | .pulseEnd pin => Sys2Proof.Machine.execPulseEnd pin s
  | .join o ident args f => Sys2Proof.Machine.execJoin o ident args f s
  | .detach o ident args f => Sys2Proof.Machine.execDetach o ident args f s
  | .resetLink o ident args f => Sys2Proof.Machine.execResetLink o ident args f s
  | .readLink o ident args f => Sys2Proof.Machine.execReadLink o ident args f s
  | .proposeReference o ident args f => Sys2Proof.Machine.execProposeReference o ident args f s
  | .withdrawReference o ident args f => Sys2Proof.Machine.execWithdrawReference o ident args f s
  | .readTimebase o ident args f => Sys2Proof.Machine.execReadTimebase o ident args f s
  | .openStream o ident args f => Sys2Proof.Machine.execOpenStream o ident args f s
  | .closeStream o ident args f => Sys2Proof.Machine.execCloseStream o ident args f s
  | .findStream o ident args f => Sys2Proof.Machine.execFindStream o ident args f s
  | .readStream o ident args f => Sys2Proof.Machine.execReadStream o ident args f s
  | .addTap o ident args f => Sys2Proof.Machine.execAddTap o ident args f s
  | .alterTap o ident args f => Sys2Proof.Machine.execAlterTap o ident args f s
  | .dropTap o ident args f => Sys2Proof.Machine.execDropTap o ident args f s
  | .setLine o ident args f => Sys2Proof.Machine.execSetLine o ident args f s
  | .subscribeLine o ident args f => Sys2Proof.Machine.execSubscribeLine o ident args f s
  | .unsubscribeLine o ident args f => Sys2Proof.Machine.execUnsubscribeLine o ident args f s
  | .readLine o ident args f => Sys2Proof.Machine.execReadLine o ident args f s
  | .setPin o ident args f => Sys2Proof.Machine.execSetPin o ident args f s
  | .readPin o ident args f => Sys2Proof.Machine.execReadPin o ident args f s
  | .readStore o ident args f => Sys2Proof.Machine.execReadStore o ident args f s
  | .setParam o ident args f => Sys2Proof.Machine.execSetParam o ident args f s
  | .setupRead o ident args f => Sys2Proof.Machine.execSetupRead o ident args f s
  | .setupWrite o ident args f => Sys2Proof.Machine.execSetupWrite o ident args f s
  | .setupWriteCompletion => Sys2Proof.Machine.execSetupWriteCompletion s
  | .setupClear o ident args f => Sys2Proof.Machine.execSetupClear o ident args f s
  | .setupClearCompletion => Sys2Proof.Machine.execSetupClearCompletion s
  | .restartHub o ident args f => Sys2Proof.Machine.execRestartHub o ident args f s
  | .restartCompletion => Sys2Proof.Machine.execRestartCompletion s
  | .replyPlacement o => Sys2Proof.Machine.execReplyPlacement o s
  | .send bytes f => Sys2Proof.Machine.execSend bytes f s
  | .fetch f => Sys2Proof.Machine.execFetch f s
  | .fetchCompletion => Sys2Proof.Machine.execFetchCompletion s
  | .chipSelectRising => Sys2Proof.Machine.execChipSelectRising s
  | .fillerByteShiftedOut => Sys2Proof.Machine.execFillerByteShiftedOut s

end Sys2Proof.Machine
end

