-- ==== Sys2Proof/Machine/Tick.lean ====
section
/-! DEFINITION. One cycle of the internal clock: rack time advances and the events that time brings fall due
(R1, R8, R18, R47, R61, R63, R73, R79, R151, R168, R169; notes/assumptions/2.md). -/

namespace Sys2Proof.Machine

/-- The next cycle: rack time takes the increment of the cycle that ends, with the carry from the residue; the new cycle's
increment is 256 sub-ticks and (k + j)/65536 sub-tick as they stand at its start (R61). -/
def advanceClock (s : State) : State :=
  let total := s.clock.residue.toNat + s.clock.increment
  { s with clock := {
      rackTime := s.clock.rackTime + BitVec.ofNat 64 (total / 65536)
      residue := BitVec.ofNat 16 (total % 65536)
      cycle := s.clock.cycle + 1
      elapsed := 0
      increment := s.nextIncrement } }

/-- `c` where the condition holds. -/
def dueWhen (b : Bool) (c : Instr) : List Instr := if b then [c] else []

/-- A beat falls due (R79). -/
def State.beatEvents (s : State) : List Instr := dueWhen (s.beatOf != s.tb.beat) .beatDue

/-- Pulse ends and fires whose time rack time has reached at the start of the cycle (R151). R151 does not say how an event inside
a cycle meets a fire moment that lies before it in the same cycle; that the fire is taken at the next cycle's start, so that
an acceptance or a READ PIN between the two still finds the entry in the list and no pulse, while the end of a pulse counts
at the event's own rack time, is the model's choice (DESIGN CHOICE, notes/assumptions/32.md). -/
def State.pinEvents (s : State) : List Instr :=
  allPins.flatMap (fun i =>
    let x := s.pins[i]
    let ended : Bool := match x.pulse with
      | some q => decide (q.stop.toNat ≤ s.now.toNat)
      | none => false
    let fires : Bool := match x.fires with
      | f :: _ => decide ((fireMoment f).toNat ≤ s.now.toNat)
      | [] => false
    dueWhen ended (.pulseEnd i) ++ dueWhen fires (.pinFire i))

/-- The completion of a setup operation whose time rack time has reached at the start of the cycle (R168, R169). The time lies
inside a cycle where the order was taken at a fraction of one; that the operation completes at the next cycle's start, so
that a setup order between the two still meets BUSY, is the model's choice (DESIGN CHOICE, notes/assumptions/32.md). -/
def State.setupEvents (s : State) : List Instr :=
  match s.setup.operation with
  | some x =>
    if reached s.now x.completes then
      [if x.write.isSome then .setupWriteCompletion else .setupClearCompletion]
    else []
  | none => []

/-- Presence filters that complete (R18). -/
def State.presenceEvents (s : State) : List Instr :=
  allPorts.flatMap (fun p => dueWhen (s.filterDue p) (.presenceChange p (s.ports[p]).pin (s.pinHeld p)))

/-- Silences and echo deadlines of the ports (R8, R47). -/
def State.linkEvents (s : State) : List Instr :=
  allPorts.flatMap (fun p =>
    let x := s.ports[p]
    let expired : Bool := match (s.delays[p]).outstanding with
      | some e => reached s.now e.deadline
      | none => false
    dueWhen ((x.state.framerRuns || x.state == .listening) && decide (Config.silenceLimit ≤ s.silenceOf p)) (.silence p)
      ++ dueWhen expired (.echoAnswerExpiry p))

/-- The absences of REFIN and of comparison edges (R63, R73). -/
def State.referenceEvents (s : State) : List Instr :=
  dueWhen (s.tb.refinActive && decide (Config.refinAbsence ≤ s.clock.cycle - s.tb.refinLastEdge)) .refinAbsence
    ++ dueWhen ((s.tb.state == .acquiring || s.tb.state == .locked) && s.edgeAbsent) .edgeAbsence

/-- The TAIL events of parcels that end at a boundary of the cycle (R6). -/
def State.tailEvents (s : State) (second : Bool) : List Instr :=
  allPorts.flatMap (fun p => match (s.egress[p]).flight with
    | some x =>
      if decide (x.stop ≤ s.slotNumber false) = !second ∧ x.stop ≤ s.slotNumber second then
        match x.kind with
        | .samples .. => [.samplesTail p]
        | .farewell => [.farewellTail p]
        | .plain => []
      else []
    | none => [])

/-- The boundary of every transmitter that is not silent (R1, R6). -/
def State.boundaryEvents (s : State) (second : Bool) : List Instr :=
  allPorts.flatMap (fun p => dueWhen (!(s.ports[p]).state.isSilent) (.freeBoundary p second))

/-- All that one cycle brings, in the order in which this model takes it (notes/assumptions/2.md). -/
def State.dueEvents (s : State) : List Instr :=
  let completion := dueWhen s.restarting .restartCompletion
  s.beatEvents ++ s.pinEvents ++ s.setupEvents ++ s.presenceEvents ++ s.linkEvents ++ s.referenceEvents
    ++ s.tailEvents false ++ completion ++ s.boundaryEvents false
    ++ s.tailEvents true ++ completion ++ s.boundaryEvents true

/-- One cycle of the internal clock on an empty queue: the events that it brings wait in the queue. At rest no clock
is kept (R171). -/
def tick (s : State) : State :=
  if s.atRest then s
  else
    let s := advanceClock s
    { s with pending := s.dueEvents }

end Sys2Proof.Machine
end

