-- ==== Sys2Proof/Safety.lean ====
section
/-! DEFINITION. The laws that a state of the hub keeps, in the terms that statements use: the pool, the queues, the
ports, the taps, the reference and the setup store. -/

namespace Sys2Proof.Machine

/-! ### The clock (R61) -/

/-- The cycle in progress adds 256 sub-ticks and at most 2047/65536 more or less, and the last event fell before the next
cycle (R61). -/
def State.ClockLaw (s : State) : Prop :=
  16775169 ≤ s.clock.increment ∧ s.clock.increment ≤ 16779263 ∧ s.clock.elapsed < s.cycleLength

/-! ### The sample store (R106, R108, R113) -/

/-- The numbers of the blocks that stand in stream FIFOs. -/
def State.storedNumbers (s : State) : List Nat :=
  s.streams.toList.flatMap (fun r => match r with
    | some r => r.fifo.map (·.number)
    | none => [])

/-- Each of the blocks 0 to 1023 is on the free list or in one stream FIFO, in one place and once, and the floor sum never
exceeds 1024 (R106, R108). -/
def State.PoolLaw (s : State) : Prop :=
  List.Perm (s.store.free ++ s.storedNumbers) (List.range 1024) ∧ s.floorSum ≤ 1024

/-- How many hold a block of a stream: the stream's taps that hold it pending, and the ports that are sending it (R113). -/
def State.holders (s : State) (st : StreamIx) (b : Nat) : Nat :=
  s.taps.toList.countP (fun t => match t with
    | some x => x.stream == st && x.pending.contains b
    | none => false)
  + s.egress.toList.countP (fun e => match e.flight with
    | some ⟨.samples st' b' _, _, _⟩ => st' == st && b' == b
    | _ => false)

/-- A stream's tap list names its taps, each once, and none is left after its drain has ended (R84, R99, R119). -/
def State.TapListLaw (s : State) : Prop :=
  ∀ st r, s.streams[(st : StreamIx)] = some r →
    r.taps.Nodup ∧ (∀ t : TapIx, t ∈ r.taps ↔ ∃ x, s.taps[t] = some x ∧ x.stream = st)
      ∧ (r.state = .draining → r.drainDeadline = none → r.taps = [])

/-- The reference count of a stored block is the number of those that hold it, 1 or more; what a tap holds pending, and what
a port is sending, is stored in the stream, and no tap holds a block twice (R113, R114). At rest no parcel is in flight and
the store waits for power-on. -/
def State.BlockLaw (s : State) : Prop :=
  s.atRest = false → s.TapListLaw
    ∧ (∀ st r, s.streams[(st : StreamIx)] = some r → ∀ k ∈ r.fifo, 1 ≤ k.refs ∧ k.refs = s.holders st k.number)
    ∧ (∀ t x, s.taps[(t : TapIx)] = some x → x.pending.Nodup
        ∧ ∃ r, s.streams[x.stream] = some r ∧ ∀ b ∈ x.pending, ∃ k ∈ r.fifo, k.number = b)
    ∧ ∀ (p : PortIx) st b t bytes start, (s.egress[p]).flight = some ⟨.samples st b t, bytes, start⟩ →
        ∃ r, s.streams[(st : StreamIx)] = some r ∧ ∃ k ∈ r.fifo, k.number = b

/-! ### Queues (R146, R150, R158) -/

/-- At most 7 notices and at most 1 REPLY (R158); the reply of an order stands in the queue only while the order is
ANSWERED in the slot (R156). -/
def OriginState.Law (q : OriginState) : Prop :=
  q.notices ≤ Config.noticePlaces ∧ q.queue.countP Entry.isReply ≤ 1
    ∧ (q.queue.any Entry.isOwnReply = true → (q.slot.bind (·.answer)).isSome)

/-- Every notice/reply queue keeps its bounds (R158). -/
def State.NoticeLaw (s : State) : Prop := ∀ o q, s.origin o = some q → q.Law

/-- A fire list holds at most 4 entries, in increasing fire time (R150). -/
def Pin.Law (x : Pin) : Prop :=
  x.fires.length ≤ Config.fireList ∧ x.fires.Pairwise (fun a b => a.toNat ≤ b.toNat)

/-- No trigger queue holds more than 16 copies, and every fire list keeps its law (R146, R150). -/
def State.TriggerLaw (s : State) : Prop :=
  (∀ p : PortIx, (s.triggers[p]).copies.length ≤ Config.triggerQueue) ∧ ∀ i : PinIx, (s.pins[i]).Law

/-! ### Ports (R7, R26, R54, R154) -/

/-- The states whose origin holds a slot and a queue, and whose port holds a delay estimate (R54, R154). -/
def PortState.isTrained : PortState → Bool
  | .joining | .admitted | .active | .leaving => true
  | _ => false

/-- The states that hold a frame ID in the registry (R26). -/
def PortState.isRegistered : PortState → Bool
  | .admitted | .active | .leaving => true
  | _ => false

/-- What a port holds agrees with its state: a queue and an estimate from JOINING to LEAVING, a frame ID from ADMITTED
to LEAVING, a training in TRAINING, an epoch in ADMITTED, a join deadline in JOINING, an error score up to 256
(R7, R25, R26, R28, R50, R54, R154). -/
def State.PortLawAt (s : State) (p : PortIx) : Prop :=
  let x := s.ports[p]
  (s.origins[p]).isSome = x.state.isTrained ∧ (s.delays[p]).estimate.isSome = x.state.isTrained
    ∧ x.frame.isSome = x.state.isRegistered ∧ (s.delays[p]).training.isSome = (x.state == .training)
    ∧ x.epoch.isSome = (x.state == .admitted) ∧ x.joinDeadline.isSome = (x.state == .joining)
    ∧ x.score ≤ Config.scoreLimit

def State.PortLaw (s : State) : Prop := ∀ p, s.PortLawAt p

/-! ### Taps (R119) -/

/-- Every tap's consumer port is ACTIVE, no port holds two taps on one stream or two under one tag, no stream's tap
list is longer than 6 (R119). -/
def State.TapLaw (s : State) : Prop :=
  (∀ t x, s.taps[(t : TapIx)] = some x → (s.ports[x.consumer]).state = .active)
    ∧ (∀ t u x y, s.taps[(t : TapIx)] = some x → s.taps[(u : TapIx)] = some y → x.consumer = y.consumer →
        x.stream = y.stream ∨ x.tag = y.tag → t = u)
    ∧ ∀ st r, s.streams[(st : StreamIx)] = some r → r.taps.length ≤ Config.tapsPerStream

/-! ### The reference (R68) -/

/-- In ACQUIRING and LOCKED the selected reference is an eligible candidate; in FREE and HOLDOVER none is selected and
none is eligible; every candidate port is ACTIVE (R64, R68). -/
def State.ReferenceLaw (s : State) : Prop :=
  (match s.tb.state with
    | .acquiring | .locked => s.selectedEligible = true
    | .free | .holdover => s.tb.selected = none ∧ s.best = none)
    ∧ ∀ p : PortIx, (s.tb.candidates[p]).isSome → (s.ports[p]).state = .active

/-! ### Hub restart (R172) -/

/-- Between the taking and the completion of a hub restart every port is VACANT, no close order is pending, and S's slot
holds the RESTART HUB, RUNNING, with no reply of its own in S's queue (R105, R165, R172). -/
def State.RestartLaw (s : State) : Prop :=
  s.restarting = true →
    (∀ p : PortIx, (s.ports[p]).state = .vacant)
      ∧ (∀ st r, s.streams[(st : StreamIx)] = some r → r.closeBy = none)
      ∧ (∃ ident, s.service.origin.slot = some ⟨ident, OrderCode.restartHub.byte, none⟩)
      ∧ s.service.origin.queue.any Entry.isOwnReply = false

/-! ### The setup store (R168) -/

/-- The word of a write in progress reads as erased (R166, R168). -/
def State.SetupLaw (s : State) : Prop :=
  ∀ w v, s.setup.operation.bind (·.write) = some (w, v) → s.setup.words[(w : Fin 24)] = erasedWord

/-- The bytes shifted in bring a whole ORDER parcel with a code to the service port (R162). -/
def State.sends (s : State) (bytes : List Byte) (code : Byte) : Prop :=
  ∃ collected before after ident args,
    (s.service.transaction = .idle ∧ collected = [] ∧ bytes = 0xA5 :: (before ++ after)
      ∨ s.service.transaction = .sending collected ∧ bytes = before ++ after)
    ∧ Inbound.ofBytes (collected ++ before) = some (.order ident code args)

/-- The command erases the store: a SETUP CLEAR, given by its fields, by the TAIL of its parcel or by a SEND, or its
completion (R169). -/
def State.erases (s : State) (c : Instr) : Prop :=
  match c with
  | .setupClear .. | .setupClearCompletion => True
  | .receivedSymbol p .tail _ =>
    ∃ ident args, Inbound.ofBytes (s.ports[p]).framer.buffer = some (.order ident OrderCode.setupClear.byte args)
  | .send bytes _ => s.sends bytes OrderCode.setupClear.byte
  | _ => False

/-- Every word is as it was, but for the one that a SETUP WRITE's completion at the front of the queue programs; or every word
has been erased by the command at the front of the queue (R168, R169). -/
def wordsKept (s t : State) : Prop :=
  (∀ w : Fin 24, t.setup.words[w] = s.setup.words[w] ∨
    s.pending.head? = some .setupWriteCompletion ∧
      s.setup.operation.bind (·.write) = some (w, t.setup.words[w])) ∨
  ∃ c, s.pending.head? = some c ∧ s.erases c ∧ t.setup.words = Vector.replicate 24 erasedWord

/-- The working settings lie in their ranges (Tables 25 and 26, R166, R170). -/
def Settings.Law (x : Settings) : Prop :=
  (4 ≤ x.echoExp ∧ x.echoExp ≤ 8) ∧ (1 ≤ x.promptCount ∧ x.promptCount ≤ 64) ∧ (16 ≤ x.gate ∧ x.gate ≤ 4095) ∧
  (1 ≤ x.slew ∧ x.slew ≤ 255) ∧ (1 ≤ x.orphanHold ∧ x.orphanHold ≤ 65535) ∧ (1 ≤ x.drainLimit ∧ x.drainLimit ≤ 4095) ∧
  (1 ≤ x.holdLimit ∧ x.holdLimit ≤ 255) ∧ (8 ≤ x.joinLimit ∧ x.joinLimit ≤ 4095) ∧
  (16 ≤ x.holdoverLimit ∧ x.holdoverLimit ≤ 65535) ∧ x.refinClass ≤ 3 ∧
  (-2047 ≤ x.localTrim ∧ x.localTrim ≤ 2047) ∧ (64 ≤ x.defaultLatency ∧ x.defaultLatency ≤ 65535) ∧
  x.defaultHoldoff ≤ 65535 ∧ ∀ p : PortIx, -4096 ≤ x.asymmetry[p] ∧ x.asymmetry[p] ≤ 4095

/-! ### Frames and streams (R26, R84, R96, R100) -/

/-- No two ports hold one frame ID (R26). -/
def State.RegistryLaw (s : State) : Prop :=
  ∀ p q : PortIx, ∀ id, s.frameId p = some id → s.frameId q = some id → p = q

/-- No two streams share producer frame ID and tag; a stream in OPENING or FLOWING has an ACTIVE producer port that
holds its frame ID, any other none; a drain deadline stands in DRAINING only, an orphan deadline in ORPHANED and nowhere
else (R84, R96, R99, R100). -/
def State.StreamLaw (s : State) : Prop :=
  (∀ a b x y, s.streams[(a : StreamIx)] = some x → s.streams[(b : StreamIx)] = some y →
      x.frameId = y.frameId → x.tag = y.tag → a = b)
    ∧ ∀ st r, s.streams[(st : StreamIx)] = some r →
      (match r.producer with
        | some p => r.isLive = true ∧ (s.ports[p]).state = .active ∧ s.frameId p = some r.frameId
        | none => r.isLive = false)
      ∧ (r.drainDeadline.isSome → r.state = .draining) ∧ r.orphanDeadline.isSome = (r.state == .orphaned)

/-! ### What a step may not touch -/

/-- Rack time, its residue and the count of cycles stand as they were (R61). -/
def sameRackTime (s t : State) : Prop :=
  t.clock.rackTime = s.clock.rackTime ∧ t.clock.residue = s.clock.residue ∧ t.clock.cycle = s.clock.cycle

/-! ### The terms of statements about one command -/

/-- The outcome is a next state, and it satisfies `P`. -/
def Runs (x : Host.Outcome State Fault Refusal) (P : State → Prop) : Prop := ∃ t, x = .next t ∧ P t

/-- The hub runs: RESETN is high and no hub restart is in progress. -/
def State.inService (s : State) : Bool := !s.atRest && !s.restarting

/-- The state in which an event at fraction `f` of the cycle begins. -/
def opened (f : Fraction) (s : State) : State := at_ f (begin_ s)

/-- A parcel has arrived on a port at fraction `f`: the receive time is recorded, the silence measurement restarts, the
error score falls by 1 (R1, R5, R7, R8). -/
def parcelTaken (p : PortIx) (f : Fraction) (s : State) : State :=
  modPort p (fun x => { x with
    score := x.score - 1, silenceSince := s.clock.cycle, lastReceived := (opened f s).now }) (opened f s)

/-- A symbol has been received on a port at fraction `f`: the receive time is recorded, the silence measurement restarts, a
slot of the selected reference is counted (R1, R8, R64). -/
def symbolTaken (p : PortIx) (f : Fraction) (s : State) : State :=
  let u := modPort p (fun x => { x with silenceSince := s.clock.cycle, lastReceived := (opened f s).now }) (opened f s)
  if s.isReference (.port p) then modTb (fun t => { t with edges := t.edges + 1 }) u else u

/-- The next received slot of a port is no comparison edge: the port is not the reference, or the slot is not the
2000th (R64). -/
def State.noComparison (s : State) (p : PortIx) : Bool :=
  !s.isReference (.port p) || decide (s.tb.edges + 1 < 2000)

/-- An order's parcel has arrived at its origin at fraction `f`. -/
def orderTaken (o : Origin) (f : Fraction) (s : State) : State :=
  match o with
  | .port p => parcelTaken p f s
  | .service => opened f s

/-- The order of an origin is ANSWERED and its reply stands at the tail of the queue (R155, R156). -/
def replied (o : Origin) (ident : Byte) (c : OrderCode) (result : ResultCode) (bytes : List Byte) : State → State :=
  modOrigin o (fun q => { q with
    slot := some ⟨ident, c.byte, some (result, bytes)⟩
    queue := q.queue ++ [.reply true ident c.byte result bytes] })

/-- The order of an origin is RUNNING (R161). -/
def running (o : Origin) (ident : Byte) (c : OrderCode) : State → State :=
  modOrigin o (fun q => { q with slot := some ⟨ident, c.byte, none⟩ })

/-- A notice has been placed, or lost, at an origin (R158, R159). -/
def noticed (o : Origin) (k : NoticeKind) (fields : List Byte) : State → State := modOrigin o (.placeNotice k fields)

/-- The hub runs, and an order that arrives from the origin finds its slot empty and no REPLY in its queue. -/
def State.slotFree (s : State) (o : Origin) : Bool :=
  s.inService && match s.origin o with
    | some q => q.slot.isNone && !q.hasReply
    | none => false

/-- An order that arrives from the origin reaches the test of its rights: its slot is free, and a port is ACTIVE
(R155). -/
def State.ready (s : State) (o : Origin) : Bool :=
  s.slotFree o && match o with
    | .port p => (s.ports[p]).state == .active
    | .service => true

/-- The command by which an order arrives. -/
def OrderCode.command (c : OrderCode) (o : Origin) (i : Byte) (a : List Byte) (f : Fraction) : Instr :=
  match c with
  | .join => .join o i a f
  | .detach => .detach o i a f
  | .resetLink => .resetLink o i a f
  | .readLink => .readLink o i a f
  | .proposeReference => .proposeReference o i a f
  | .withdrawReference => .withdrawReference o i a f
  | .readTimebase => .readTimebase o i a f
  | .openStream => .openStream o i a f
  | .closeStream => .closeStream o i a f
  | .findStream => .findStream o i a f
  | .readStream => .readStream o i a f
  | .addTap => .addTap o i a f
  | .alterTap => .alterTap o i a f
  | .dropTap => .dropTap o i a f
  | .setLine => .setLine o i a f
  | .subscribeLine => .subscribeLine o i a f
  | .unsubscribeLine => .unsubscribeLine o i a f
  | .readLine => .readLine o i a f
  | .setPin => .setPin o i a f
  | .readPin => .readPin o i a f
  | .readStore => .readStore o i a f
  | .setParam => .setParam o i a f
  | .setupRead => .setupRead o i a f
  | .setupWrite => .setupWrite o i a f
  | .setupClear => .setupClear o i a f
  | .restartHub => .restartHub o i a f

/-- The number of argument bytes of an order (Table 29); DETACH names a port from S only. -/
def OrderCode.argLength (c : OrderCode) (o : Origin) : Nat :=
  match c with
  | .join | .setParam => 6
  | .detach => if o = .service then 1 else 0
  | .withdrawReference | .readTimebase | .readStore | .setupClear | .restartHub => 0
  | .resetLink | .readLink | .closeStream | .subscribeLine | .unsubscribeLine | .readLine | .readPin => 1
  | .proposeReference | .readStream | .dropTap | .setupRead => 2
  | .openStream => 15
  | .findStream | .setLine | .setPin | .setupWrite => 5
  | .addTap => 24
  | .alterTap => 23

/-! ### The terms of statements about notices -/

/-- Notices with their fields, in the order in which an event places them. -/
abbrev Notices := List (NoticeKind × List Byte)

/-- An origin after notices have been placed, or lost, in turn (R158, R159). -/
def OriginState.told (l : Notices) (q : OriginState) : OriginState := l.foldl (fun q x => q.placeNotice x.1 x.2) q

/-- What an origin holds after an event that posts it notices and nothing else; within hub restart nothing is posted
(R82, R158). -/
def State.told (s : State) (o : Origin) (l : Notices) : Option OriginState :=
  if s.restarting then s.origin o else (s.origin o).map (.told l)

/-- The notices of one kind that the taps of a list bring to a port, in the order of the list, each with the number of a
stream and the tap's consumer tag (R98, R100, R103). -/
def State.tapNotices (s : State) (k : NoticeKind) (st : StreamIx) (taps : List TapIx) (c : PortIx) : Notices :=
  taps.filterMap (fun v => match s.taps[v] with
    | some x => if x.consumer = c then some (k, be 1 st.val ++ [x.tag]) else none
    | none => none)

/-- An origin whose close order, RUNNING in the slot, is answered DONE: the reply joins the queue where that holds no REPLY
(R98, R156). -/
def OriginState.closeAnswered (q : OriginState) : OriginState :=
  match q.slot with
  | some ⟨ident, code, none⟩ => OriginState.placeReply { q with slot := some ⟨ident, code, some (.done, [])⟩ }
  | _ => q

/-- The end of a drain is told: STREAM ENDED to each consumer in tap-list order, then DONE to the close order pending. A
LEAVING port may get its FAREWELL behind them and is not spoken of (R33, R98, R99). -/
def DrainTold (s t : State) (st : StreamIx) (r : Stream) : Prop :=
  (∀ c : PortIx, (s.ports[c]).state ≠ .leaving → t.origins[c] = (s.origins[c]).map (fun q =>
      let q' := q.told (s.tapNotices .streamEnded st r.taps c)
      if r.closeBy = some (.port c) then q'.closeAnswered else q')) ∧
  t.service.origin = if r.closeBy = some .service then s.service.origin.closeAnswered else s.service.origin

/-- The fields of TIMEBASE EVENT: state left, state entered, cause, reference, its class, trim, rack time (R78, Table 33). -/
def timebaseFields (left entered cause reference cls : Nat) (trim : Int) (now : Stamp) : List Byte :=
  be 1 left ++ be 1 entered ++ be 1 cause ++ be 1 reference ++ be 1 cls ++ beInt 2 trim ++ be 8 now.toNat

/-- A change of reference is told to the ports: GAINED to the port selected now, LOST to the port selected before, each
with the timebase state and its candidate class; no other port is told anything (R70). `u` holds what the origins were but
for the roles. The class of a port without a candidacy is left open (notes/assumptions/3.md). -/
def RolesTold (u t : State) : Prop :=
  ∀ q : PortIx,
    let told (role : Nat) : Prop := ∃ cls : Nat, (∀ y, t.tb.candidates[q] = some y → cls = y.cls) ∧
      t.origin (.port q) = u.told (.port q) [(.referenceRole, be 1 role ++ be 1 t.tb.state.code ++ be 1 cls)]
    if u.tb.selected = t.tb.selected then t.origin (.port q) = u.origin (.port q)
    else if t.tb.selected = some (.port q) then told 1
    else if u.tb.selected = some (.port q) then told 2
    else t.origin (.port q) = u.origin (.port q)

/-! ### The terms of statements about selection (R62, R68, R69, R75, R76, R78) -/

/-- An acquisition on a candidate has started in a cycle: it starts from the saved trim, and its counts from the
beginning (R69). -/
def Timebase.acquires (x : Timebase) (c : Source) (cycle : Nat) : Timebase := { x with
  state := .acquiring, selected := some c, trim := x.savedTrim, pull := 0, comparisons := 0, inWindow := 0
  expected := none, edges := 0, edgeSince := cycle }

/-- LOCKED has ended in HOLDOVER: the trim is the saved one, no reference is selected (R75). -/
def Timebase.holds (x : Timebase) : Timebase := { x with
  state := .holdover, selected := none, trim := x.savedTrim, pull := 0, excursions := 0, holdoverBeats := 0
  unlocks := satAdd x.unlocks 1 }

/-- The timebase is FREE at the local trim (R62). -/
def Timebase.frees (x : Timebase) (localTrim : Int) : Timebase := { x with
  state := .free, selected := none, trim := localTrim, savedTrim := localTrim, pull := 0 }

/-- The acquisition of the selected reference has failed: it is marked FAILED (R66, R74). -/
def Timebase.failing (x : Timebase) : Timebase := { x with
  acquisitionFailures := satAdd x.acquisitionFailures 1
  refinFailed := x.refinFailed || decide (x.selected = some .refin)
  failed := Vector.ofFn (fun p : PortIx => x.failed[p] || decide (x.selected = some (.port p))) }

/-- What a re-run of selection leaves of the timebase, and the TIMEBASE EVENTs that it brings S, row by row of R68. `gone` is
the cause where the reference of an acquisition has gone: 6 LOST, or 7 ACQ FAIL (R68, R69, R75, R76, R78, Table 15). The
cause SELECT of an acquisition whose own reference has lowered its class is the model's choice (notes/assumptions/26.md). -/
def State.selection (s : State) (gone : Nat) : Timebase × Notices :=
  let x := s.tb
  let cycle := s.clock.cycle
  let event (left entered cause : Nat) (best : Option (Source × Candidacy)) (trim : Int) : NoticeKind × List Byte :=
    (.timebaseEvent, timebaseFields left entered cause (sourceCode (best.map (·.1))) ((best.map (·.2.cls)).getD 0) trim s.now)
  let start (left cause : Nat) (c : Source) (y : Candidacy) : NoticeKind × List Byte :=
    event left 1 cause (some (c, y)) x.savedTrim
  match x.state, s.selectedEligible, s.best with
  | .free, _, some (c, y) => (x.acquires c cycle, [start 0 1 c y])
  | .holdover, _, some (c, y) => (x.acquires c cycle, [start 3 1 c y])
  | .acquiring, true, some (c, y) => if x.selected = some c then (x, []) else (x.acquires c cycle, [start 1 1 c y])
  | .acquiring, false, some (c, y) => (x.acquires c cycle, [start 1 gone c y])
  | .acquiring, false, none => (x.frees s.settings.localTrim, [event 1 0 gone none s.settings.localTrim])
  | .locked, true, some (c, y) =>
    if s.classOf x.selected < y.cls then (x.acquires c cycle, [start 2 2 c y]) else (x, [])
  | .locked, false, some (c, y) => (x.holds.acquires c cycle, [event 2 3 6 none x.savedTrim, start 3 1 c y])
  | .locked, false, none => (x.holds, [event 2 3 6 none x.savedTrim])
  | .free, _, none | .holdover, _, none | .acquiring, true, none | .locked, true, none => (x, [])

/-- The outcome is the state given, but for what a re-run of selection in it does: to the timebase, to S, and, by their
roles, to the ports (R68, R70, R78). -/
def Reselects (v : State) (gone : Nat) (x : Host.Outcome State Fault Refusal) : Prop := Runs x fun t =>
  t = { v with
    tb := (v.selection gone).1, origins := t.origins, service := { v.service with origin := t.service.origin }
    freeReads := t.freeReads } ∧
  t.origin .service = v.told .service (v.selection gone).2 ∧ RolesTold v t

/-- What the end of a port's candidacy leaves of the timebase, and the TIMEBASE EVENTs of it: the candidacy of a port in
ACTIVE is withdrawn and selection re-runs; elsewhere nothing is withdrawn (R65, R68, R76). -/
def State.withdrawal (s : State) (p : PortIx) : Timebase × Notices :=
  if (s.ports[p]).state = .active ∧ (s.tb.candidates[p]).isSome then
    ({ s with tb := { s.tb with candidates := s.tb.candidates.set p none } }).selection 6
  else (s.tb, [])

/-! ### The terms of statements about the store -/

/-- Whether the stamp of an arriving parcel lies more than half a sample period, rounded down, from what the stream's last
parcel, the gap and the period predict; the first parcel predicts nothing (R92). -/
def slipped (sequence : BitVec 16) (stamp : Stamp) (r : Stream) : Bool :=
  match r.baseline with
  | none => false
  | some b =>
    let gap := (sequence - b.expected).toNat
    let predicted : Stamp := b.stamp + BitVec.ofNat 64 ((b.count.toNat + gap * r.spp) * r.period)
    decide (r.period / 2 < (stamp - predicted).toInt.natAbs)

/-- A stream that has accepted a parcel: its baselines have moved on to it, accepted and, where the stamp slips, slip have
risen (R91, R92, R93). -/
def ingested (sequence count : BitVec 16) (stamp : Stamp) (r : Stream) : Stream :=
  { r with
    baseline := some ⟨sequence + 1, stamp, count⟩
    counters := { r.counters with
      accepted := satAdd r.counters.accepted 1
      slip := satAdd r.counters.slip (if slipped sequence stamp r then 1 else 0) } }

/-- A SAMPLES parcel meets a flowing stream of an ACTIVE port with a good form, and a sequence number that is not stale
(R90, R91). -/
def State.ingests (s : State) (p : PortIx) (tag : Byte) (sequence count : BitVec 16) (payload : List Byte) (st : StreamIx)
    (r : Stream) : Prop :=
  s.inService = true ∧ (s.ports[p]).state = .active ∧ payload.length ≤ 256 ∧ s.producerMap p tag = some st ∧
    s.streams[st] = some r ∧ r.state = .flowing ∧ 1 ≤ count.toNat ∧ count.toNat ≤ r.spp ∧
    payload.length = r.width * count.toNat ∧ ∀ b, r.baseline = some b → (sequence - b.expected).toNat < 32768

/-- A FIFO after one reference to each of the blocks of a list has been released: a block whose last reference goes leaves it
(R114, R115). -/
def released (bs : List Nat) (fifo : List Block) : List Block :=
  fifo.filterMap (fun k => if k.number ∈ bs then (if k.refs ≤ 1 then none else some { k with refs := k.refs - 1 }) else some k)

/-- The blocks of a list whose last reference goes with the release (R115). -/
def freed (bs : List Nat) (fifo : List Block) : List Nat :=
  bs.filter (fun b => fifo.any (fun k => k.number == b && decide (k.refs ≤ 1)))

/-- A stream keeps a block when a port's taps shed all they hold pending: some stored block has more references than those
taps release (R114, R127). -/
def State.keepsBlock (s : State) (p : PortIx) (st : StreamIx) : Prop :=
  ∃ r, s.streams[st] = some r ∧ ∃ k ∈ r.fifo,
    s.taps.toList.countP (fun t => match t with
      | some x => x.consumer == p && x.stream == st && x.pending.contains k.number
      | none => false) < k.refs

/-! ### The terms of statements about triggers -/

/-- An accepted trigger of a line has been distributed: the line's record; one copy with one fire time in the queue of each
subscriber port, appended below 16 copies, OVERRUN after a loss, lost and counted at 16; the fire time entered at each
subscriber pin, with the line's late counter raised for each pin that is late; and nothing else (R145, R146, R150). -/
def FannedOut (l : LineIx) (t0 : Stamp) (origin : Byte) (clamped : Bool) (u t : State) : Prop :=
  let x := u.lines[l]
  let fire : Stamp := t0 + BitVec.ofNat 64 (x.latency * 256)
  let fires (i : PinIx) : Bool := (u.pins[i]).mode == .output && (u.pins[i]).line == l
  let late := if (fireMoment fire).toNat ≤ u.now.toNat then allPins.countP fires else 0
  t = { u with lines := t.lines, pins := t.pins, triggers := t.triggers, ports := t.ports } ∧
  t.lines = u.lines.set l
    { x with last := some t0, accepted := satAdd x.accepted 1, pendingMerged := 0, late := satAdd x.late late } ∧
  (∀ i : PinIx, t.pins[i] = if fires i then (enterFire l fire i u).pins[i] else u.pins[i]) ∧
  ∀ q : PortIx,
    let old := u.triggers[q]
    (x.subscribers[q] = false → t.triggers[q] = old ∧ t.ports[q] = u.ports[q]) ∧
    (x.subscribers[q] = true → old.copies.length < 16 → t.ports[q] = u.ports[q] ∧
      t.triggers[q] = ⟨old.copies ++ [⟨l, origin, fire, clamped, old.overrun, x.pendingMerged⟩], false⟩) ∧
    (x.subscribers[q] = true → 16 ≤ old.copies.length → t.triggers[q] = ⟨old.copies, true⟩ ∧
      t.ports[q] = { u.ports[q] with counters :=
        { u.ports[q].counters with triggerOverruns := satAdd u.ports[q].counters.triggerOverruns 1 } })

/-! ### The terms of statements about links -/

/-- The cells of Table 8 in which a symbol is no error and no TAIL of a collected parcel (R4). -/
def framerNext (fr : Framer) (symbol : Symbol) : Option Framer :=
  match fr.mode, symbol with
  | .outside, .fill | .skip, .data _ => some fr
  | .outside, .lead | .skip, .lead => some ⟨.inside, []⟩
  | .inside, .data b => if fr.buffer.length < 284 then some ⟨.inside, fr.buffer ++ [b]⟩ else none
  | .skip, .fill | .skip, .tail => some ⟨.outside, []⟩
  | _, _ => none

/-- The cells of Table 8 that raise the error score by 8, with the framer they leave; the flag tells a check failure from an
illegal symbol (R4, R5). -/
def framerFails (fr : Framer) (symbol : Symbol) : Option (Framer × Bool) :=
  match fr.mode, symbol with
  | .outside, .data _ | .outside, .tail | .outside, .illegal | .skip, .illegal => some (fr, false)
  | .inside, .fill => some (⟨.outside, []⟩, true)
  | .inside, .lead => some (⟨.inside, []⟩, true)
  | .inside, .data _ => if fr.buffer.length < 284 then none else some (⟨.skip, []⟩, true)
  | .inside, .illegal => some (⟨.skip, []⟩, true)
  | .inside, .tail => if 5 ≤ fr.buffer.length ∧ checkPasses fr.buffer then none else some (⟨.outside, []⟩, true)
  | _, _ => none

/-- A transmitter's parcel goes out with its LEAD in the second or first slot of the cycle (R6). -/
def launched (p : PortIx) (second : Bool) (kind : FlightKind) (bytes : List Byte) (s : State) : State :=
  modEgress p (fun e => { e with
    flight := some ⟨kind, bytes, 2 * s.clock.cycle + (if second then 1 else 0)⟩, lastStop := e.ended }) s

/-! ### The terms of statements about a beat -/

/-- The beat brings a held ACTIVE port to its hold limit (R29). -/
def State.holdEnds (s : State) (p : PortIx) : Bool :=
  (s.ports[p]).state == .active && (s.ports[p]).held && decide (s.settings.holdLimit ≤ (s.ports[p]).holdBeats + 1)

/-- Beat `n` is the join deadline of a JOINING port (R25). -/
def State.joinEnds (s : State) (n : Beat) (p : PortIx) : Bool :=
  (s.ports[p]).state == .joining && (s.ports[p]).joinDeadline == some n

/-- Beat `n` is the admission epoch of an ADMITTED port (R28). -/
def State.admits (s : State) (n : Beat) (p : PortIx) : Bool :=
  (s.ports[p]).state == .admitted && (s.ports[p]).epoch == some n

/-- The port that takes an ORPHANED stream up at beat `n`: it enters ACTIVE there and holds the frame ID of the stream
(R102, R103). -/
def State.adopter (s : State) (n : Beat) (r : Stream) : Option PortIx :=
  if r.state = .orphaned then allPorts.find? (fun p => s.admits n p && s.frameId p == some r.frameId) else none

/-- The beat sheds blocks of a stream: a tap with blocks pending on it belongs to a port that reaches its hold limit
(R29, R127). -/
def State.beatSheds (s : State) (st : StreamIx) : Prop :=
  ∃ v x, s.taps[(v : TapIx)] = some x ∧ x.stream = st ∧ x.pending ≠ [] ∧ s.holdEnds x.consumer = true

/-- The PORT EVENTs that beat `n` brings S, by increasing port number: admissions, and attempts that their join limit ends,
the third of which in a row faults the port (R24, R25, R28, R41). -/
def State.beatPortEvents (s : State) (n : Beat) : Notices :=
  allPorts.filterMap (fun p =>
    let frame := (s.ports[p]).frame
    if s.admits n p then some (.portEvent, portEventFields p .admitted .active .epoch frame)
    else if s.joinEnds n p then some (.portEvent,
      if 3 ≤ (s.ports[p]).failures + 1 then portEventFields p .joining .faulted .fault frame
      else portEventFields p .joining .listening .joinLimit frame)
    else none)

/-- The notices that beat `n` brings a port where it sheds nothing: ADOPTED to it for each stream that it takes up, STREAM
RESUMED for its taps on streams that are taken up, STREAM ENDED for its taps on streams whose drain ends, those at their
drain deadline before those at their orphan deadline without blocks (R98, R99, R101, R103, R158). -/
def State.beatNotices (s : State) (n : Beat) (c : PortIx) : Notices :=
  let taken (p : PortIx) : List StreamIx := allStreams.filter (fun st => (s.streams[st]).any (fun r => s.adopter n r == some p))
  let taps (st : StreamIx) : List TapIx := ((s.streams[st]).map (·.taps)).getD []
  let ending (f : Stream → Bool) : List StreamIx := allStreams.filter (fun st => (s.streams[st]).any f)
  (taken c).map (fun st => (.adopted, be 1 st.val ++ [((s.streams[st]).map (·.tag)).getD 0]))
    ++ (allPorts.flatMap taken).flatMap (fun st => s.tapNotices .streamResumed st (taps st) c)
    ++ (ending (fun r => r.state == .draining && r.drainDeadline == some n) ++ ending (fun r =>
        r.state == .orphaned && r.orphanDeadline == some n && r.fifo.isEmpty && (s.adopter n r).isNone)).flatMap
        (fun st => s.tapNotices .streamEnded st (taps st) c)

/-! ### The terms of statements about ports -/

/-- Nothing is held for a port: what it holds in VACANT, LISTENING, PARKED and FAULTED (R19, R22, R34, R35). -/
def State.HoldsNothing (s : State) (p : PortIx) : Prop :=
  let x := s.ports[p]
  let d := s.delays[p]
  x.frame = none ∧ x.epoch = none ∧ x.joinDeadline = none ∧ x.held = false ∧ x.holdBeats = 0 ∧ x.missRun = 0
    ∧ x.score = 0 ∧ d.estimate = none ∧ d.due = none ∧ d.outstanding = none ∧ d.training = none
    ∧ s.origins[p] = none ∧ s.triggers[p] = ⟨[], false⟩ ∧ (s.egress[p]).dueBeat = none ∧ s.drainSets[p] = []

/-- A port stands in no table of another block: no tap, no stream, no candidacy, no subscription (R32, R34). -/
def State.StandsNowhere (s : State) (p : PortIx) : Prop :=
  (∀ t x, s.taps[(t : TapIx)] = some x → x.consumer ≠ p) ∧ (∀ st : StreamIx, s.produces p st = false)
    ∧ s.tb.candidates[p] = none ∧ ∀ l : LineIx, (s.lines[l]).subscribers[p] = false

/-- What loss and reset leave of the port itself: what the port's counters and the parcel in flight were, and every
other port as it was (R17, R42). -/
def SameElsewhere (p : PortIx) (s t : State) : Prop :=
  (t.ports[p]).counters = (s.ports[p]).counters ∧ (t.ports[p]).presence = (s.ports[p]).presence
    ∧ (t.egress[p]).flight = (s.egress[p]).flight ∧ (t.delays[p]).nextEcho = (s.delays[p]).nextEcho
    ∧ (∀ q : PortIx, q ≠ p → t.ports[q] = s.ports[q] ∧ t.delays[q] = s.delays[q] ∧ t.egress[q] = s.egress[q])
    ∧ sameRackTime s t ∧ t.settings = s.settings ∧ t.setup = s.setup ∧ t.pins = s.pins

/-- A stream of a lost port waits as an orphan: everything but state, producer and orphan deadline is kept
(R34, R100). -/
def Orphaned (s t : State) (st : StreamIx) (r : Stream) : Prop :=
  ∃ r', t.streams[st] = some r' ∧ r'.state = .orphaned ∧ r'.producer = none
    ∧ r'.orphanDeadline = some (s.tb.beat + BitVec.ofNat 32 s.settings.orphanHold)
    ∧ r'.frameId = r.frameId ∧ r'.tag = r.tag ∧ r'.baseline = r.baseline ∧ r'.counters = r.counters

/-- A stream of a departing or reset port drains, or is FREE already because it holds no block
(R32, R37, R96, R98). -/
def Drains (s t : State) (st : StreamIx) (r : Stream) : Prop :=
  t.streams[st] = none ∨
    ∃ r', t.streams[st] = some r' ∧ r'.state = .draining ∧ r'.producer = none ∧ r'.orphanDeadline = none
      ∧ r'.drainDeadline = some (s.tb.beat + BitVec.ofNat 32 s.settings.drainLimit)
      ∧ r'.frameId = r.frameId ∧ r'.tag = r.tag ∧ r'.baseline = r.baseline ∧ r'.counters = r.counters

/-- A loss is told to S: PORT EVENT with the state left, the state entered and the cause; before it only the DONE of a close
order of S, behind it the TIMEBASE EVENTs of a withdrawn candidacy, at the rack time of the event (R22, R41, R76, R78,
R158). -/
def LossTold (p : PortIx) (cause : PortCause) (s t : State) : Prop :=
  ∃ q : OriginState, (q = s.service.origin ∨ q = s.service.origin.closeAnswered) ∧
    t.service.origin = q.told
      ((.portEvent, portEventFields p (s.ports[p]).state (t.ports[p]).state cause (s.ports[p]).frame) ::
        (({ s with clock := t.clock }).withdrawal p).2)

/-- The loss of a port that held a candidacy re-runs selection; a slot of a reference may have been counted in the event
before the reference went (R64, R68, R75, R76). -/
def LossReselects (p : PortIx) (s t : State) : Prop :=
  t.tb = (s.withdrawal p).1 ∨
    s.isReference (.port p) = true ∧ (t.tb.selected = none ∨ t.tb.selected = some (.port p)) ∧
      t.tb = { (s.withdrawal p).1 with edges := s.tb.edges + 1 }

/-- The end of a port's service by an order: its candidacy is withdrawn and selection re-runs; S is told PORT EVENT with the
cause, then the TIMEBASE EVENTs. Said of S where it has no close order pending, which the drains of the event may answer;
`u` holds what the reply of the order has left (R41, R65, R68, R75, R76, R78, R158). -/
def LeavesService (p : PortIx) (cause : PortCause) (u t : State) : Prop :=
  t.tb = (u.withdrawal p).1 ∧
  ((∀ st r, u.streams[(st : StreamIx)] = some r → r.closeBy ≠ some .service) →
    t.origin .service = u.told .service
      ((.portEvent, portEventFields p (u.ports[p]).state (t.ports[p]).state cause (u.ports[p]).frame) :: (u.withdrawal p).2))

/-- The consumers of a lost port's streams are told: STREAM ORPHANED for each tap, by stream and in tap-list order; before it
a port that the loss makes the reference is told GAINED, with the timebase state and its candidate class. Said of a port
that the loss does not take the role from, where the lost port held no block pending, so that the loss brings no other
notice (R70, R100, R158). -/
def OrphansTold (p : PortIx) (s t : State) : Prop :=
  (∀ v x, s.taps[(v : TapIx)] = some x → x.consumer = p → x.pending = []) → s.BlockLaw →
    ∀ c : PortIx, c ≠ p → (s.tb.selected = some (.port c) → t.tb.selected = s.tb.selected) →
      let gained : Notices := if t.tb.selected = some (.port c) ∧ t.tb.selected ≠ s.tb.selected then
          [(.referenceRole, be 1 1 ++ be 1 t.tb.state.code ++ be 1 (((s.tb.candidates[c]).map (·.cls)).getD 0))]
        else []
      t.origins[c] = (s.origins[c]).map (.told (gained ++ (allStreams.filter (s.produces p)).flatMap (fun st =>
        s.tapNotices .streamOrphaned st (((s.streams[st]).map (·.taps)).getD []) c)))

/-- The loss of a port in TRAINING, JOINING, ADMITTED, ACTIVE or LEAVING, with its cause (R22, R34, R35, R41, R68, R76, R100):
it ends in LISTENING where presence is high, else in VACANT; an ACTIVE port's streams become orphans, and its candidacy is
withdrawn; S and the consumers are told. -/
def Lost (p : PortIx) (cause : PortCause) (s t : State) : Prop :=
  (t.ports[p]).state = (if (t.ports[p]).presence then .listening else .vacant) ∧ t.HoldsNothing p ∧ LossReselects p s t
    ∧ (s.restarting = false → LossTold p cause s t)
    ∧ ((s.ports[p]).state = .active →
        t.StandsNowhere p ∧ (∀ st r, s.streams[(st : StreamIx)] = some r → s.produces p st = true → Orphaned s t st r)
          ∧ (s.restarting = false → OrphansTold p s t))

end Sys2Proof.Machine
end

