-- ==== Sys2Proof/Certificates/Slice0/Obligations.lean ====
section
/-! DEFINITION. The statements about the KH2212 for the provers, one `Prop` each. -/

open Sys2Proof Sys2Proof.Machine

/-! ### The queue and the clock -/

/-- A step takes the command at the front of the queue and runs it with the queue's rest. That commands wait in a queue, which
the spec does not give the hub, is the model's choice (DESIGN CHOICE, notes/assumptions/2.md). -/
def Obligations.StepTakesFront : Prop :=
  ∀ (c : Instr) (s : State), step { s with pending := c :: s.pending } = exec c s

/-- On an empty queue one cycle passes (DESIGN CHOICE, notes/assumptions/2.md): rack time with its residue advances by the
increment of the cycle that ends, the new cycle's is 2^24 + clamp(k + j, -2047, 2047) in 1/65536 sub-tick, and nothing else
changes but the queue (R61). At rest nothing changes (R171). -/
def Sys2Proof.Claims.CycleOfTheClock : Prop :=
  ∀ s : State, s.pending = [] →
    (s.atRest = true → step s = .next s) ∧
    (s.atRest = false → ∃ (c : Clock) (q : List Instr), step s = .next { s with clock := c, pending := q } ∧
      c.cycle = s.clock.cycle + 1 ∧ c.elapsed = 0 ∧
      c.increment = (16777216 + max (-2047) (min (s.tb.trim + s.tb.pull) 2047)).toNat ∧
      c.rackTime.toNat * 65536 + c.residue.toNat =
        (s.clock.rackTime.toNat * 65536 + s.clock.residue.toNat + s.clock.increment) % 2 ^ 80)

/-- What the new cycle puts into the empty queue (DESIGN CHOICE, notes/assumptions/2.md; so is that a time inside a cycle
counts from the next cycle's start, notes/assumptions/32.md): the beat that falls due; ends of pulses and fires, by pin;
the completion of a setup operation; presence filters; silences and echo deadlines, by port; the absences of REFIN and of
comparison edges; then for the first slot of the cycle the TAILs, the completion of a restart and the boundaries, by port,
and the same for the second (R1, R6, R8, R18, R47, R63, R73, R79, R151, R168, R169, R172). -/
def Sys2Proof.Claims.CycleQueuesWhatIsDue : Prop :=
  ∀ s : State, s.pending = [] → s.atRest = false → Runs (step s) fun t =>
    let now := t.clock.rackTime
    let cycle := t.clock.cycle
    let when (b : Bool) (c : Instr) : List Instr := if b then [c] else []
    let pin (i : PinIx) : List Instr :=
      when ((s.pins[i]).pulse.any (fun q => decide (q.stop.toNat ≤ now.toNat))) (.pulseEnd i)
        ++ when ((s.pins[i]).fires.head?.any (fun g => decide ((fireMoment g).toNat ≤ now.toNat))) (.pinFire i)
    let presence (p : PortIx) : List Instr :=
      let x := s.ports[p]
      when (x.pin != x.presence && decide (1024 ≤ cycle - x.pinSince)) (.presenceChange p x.pin (cycle - x.pinSince))
    let link (p : PortIx) : List Instr :=
      let x := s.ports[p]
      when ((x.state.framerRuns || x.state == .listening) && decide (256 ≤ cycle - x.silenceSince)) (.silence p)
        ++ when ((s.delays[p]).outstanding.any (fun e => reached now e.deadline)) (.echoAnswerExpiry p)
    let tail (slot : Nat) (p : PortIx) : List Instr :=
      match (s.egress[p]).flight with
      | some ⟨.samples .., bytes, start⟩ =>
        when (start + bytes.length + 2 == slot || slot % 2 == 0 && decide (start + bytes.length + 2 < slot)) (.samplesTail p)
      | some ⟨.farewell, bytes, start⟩ =>
        when (start + bytes.length + 2 == slot || slot % 2 == 0 && decide (start + bytes.length + 2 < slot)) (.farewellTail p)
      | _ => []
    let slot (second : Bool) : List Instr :=
      allPorts.flatMap (tail (2 * cycle + (if second then 1 else 0))) ++ when s.restarting .restartCompletion
        ++ allPorts.flatMap (fun p =>
          when ((s.ports[p]).state != .vacant && (s.ports[p]).state != .faulted) (.freeBoundary p second))
    t.pending =
      when (BitVec.ofNat 32 (now.toNat / 256 / 2 ^ s.tb.beatExp) != s.tb.beat) .beatDue ++ allPins.flatMap pin
        ++ (match s.setup.operation with
          | some x => when (reached now x.completes) (if x.write.isSome then .setupWriteCompletion else .setupClearCompletion)
          | none => [])
        ++ allPorts.flatMap presence ++ allPorts.flatMap link
        ++ when (s.tb.refinActive && decide (1024 ≤ cycle - s.tb.refinLastEdge)) .refinAbsence
        ++ when ((s.tb.state == .acquiring || s.tb.state == .locked) && decide (3000 ≤ cycle - s.tb.edgeSince)) .edgeAbsence
        ++ slot false ++ slot true

/-- Only a cycle of the clock and POWER_ON move rack time, its residue and the count of cycles (R61). -/
def Sys2Proof.Claims.RackTimeStands : Prop :=
  ∀ (c : Instr) (s t : State), (∀ present wires, c ≠ .powerOn present wires) → exec c s = .next t → sameRackTime s t

/-- The rack time of events does not go back (R61): an event at any fraction of the cycle finds the rack time at or above
the last event's and the cycle's start, and below the next cycle's, whatever the events of the cycle do to trim and pull. -/
def Sys2Proof.Claims.EventTimeIsMonotone : Prop :=
  (∀ (f : Fraction) (s : State), s.ClockLaw →
    s.clock.elapsed ≤ (at_ f s).clock.elapsed ∧ (at_ f s).clock.elapsed < s.cycleLength ∧
      s.cycleLength = ((advanceClock s).clock.rackTime - s.clock.rackTime).toNat ∧ 255 ≤ s.cycleLength) ∧
  ∀ s t : State, s.ClockLaw → step s = .next t → t.ClockLaw

/-- The clock of the hub: what one cycle does and what it queues, that no event moves it, and that the times of events do
not go back (R61). That an empty queue lets a cycle pass, with its order of events, and how the elapsed fraction of a cycle
is read, are the model's (notes/assumptions/2.md, 5.md). -/
def Obligations.RackTime : Prop :=
  Claims.CycleOfTheClock ∧ Claims.CycleQueuesWhatIsDue ∧ Claims.RackTimeStands ∧ Claims.EventTimeIsMonotone

/-! ### Power-on and rest -/

/-- After power-on with any store, cables and wires: rack time 0, FREE at the local trim, beat 0, all streams FREE, no
tap, 1024 free blocks in order, empty origins, every counter 0; a port is LISTENING where its pin is high and its enable
bit set, else VACANT, and its presence filter takes the pin; each trigger pin is as the store gives it; the store's words
stand and no setup operation is in progress; the queue of commands stands. That the command carries the levels of the
PRESENT pins and of the wires is the model's choice (notes/assumptions/12.md). -/
def Obligations.PowerOnStarts : Prop :=
  ∀ (present : BitVec 12) (wires : BitVec 4) (s : State), Runs (exec (.powerOn present wires) s) fun t =>
    t.clock = ⟨0, 0, 0, 0, (16777216 + t.settings.localTrim).toNat⟩ ∧ t.atRest = false ∧ t.restarting = false ∧
    t.pending = s.pending ∧
    t.setup = ⟨s.setup.words, none⟩ ∧ t.settings = loadSettings s.setup.words ∧
    t.tb.state = .free ∧ t.tb.trim = t.settings.localTrim ∧ t.tb.savedTrim = t.settings.localTrim ∧ t.tb.pull = 0 ∧
    t.tb.beat = 0 ∧ t.tb.beatExp = loadBeatExp s.setup.words ∧ t.tb.selected = none ∧ t.tb.refinActive = false ∧
    t.tb.refinFailed = false ∧ (t.tb.locks, t.tb.unlocks, t.tb.acquisitionFailures, t.tb.holdoverExpiries) = (0, 0, 0, 0) ∧
    (∀ p : PortIx, t.tb.candidates[p] = none ∧ t.tb.failed[p] = false) ∧
    (∀ st : StreamIx, t.streams[st] = none) ∧ (∀ x : TapIx, t.taps[x] = none) ∧
    t.store = ⟨List.range 1024, 1024, 0, 0⟩ ∧ t.service = ⟨⟨none, [], 0, false⟩, 0, .idle⟩ ∧
    (∀ l : LineIx, t.lines[l] = ⟨t.settings.defaultLatency, t.settings.defaultHoldoff, Vector.replicate 12 false,
      none, 0, 0, 0, 0⟩) ∧
    (∀ i : PinIx, t.pins[i] = loadPin s.setup.words i (wires.getLsbD i) ∧ (t.pins[i]).wire = wires.getLsbD i ∧
      (t.pins[i]).reference = wires.getLsbD i ∧ (t.pins[i]).fires = [] ∧ (t.pins[i]).pulse = none ∧
      (t.pins[i]).counters = ⟨0, 0, 0, 0, 0⟩) ∧
    ∀ p : PortIx,
      (t.ports[p]).pin = present.getLsbD p ∧ (t.ports[p]).pinSince = 0 ∧
      (t.ports[p]).state = (if present.getLsbD p && t.settings.enable[p] then .listening else .vacant) ∧
      (t.ports[p]).presence = present.getLsbD p ∧ (t.ports[p]).counters = PortCounters.zero ∧
      (t.ports[p]).failures = 0 ∧ (t.ports[p]).fillRun = 0 ∧ t.HoldsNothing p ∧ (t.delays[p]).nextEcho = 0 ∧
      (t.egress[p]).flight = none ∧ (t.egress[p]).rotation = 127

/-- The working settings lie in their ranges whatever the store holds, and an erased store gives the defaults
(Table 25, R166, R179). -/
def Sys2Proof.Claims.SettingsInRange : Prop :=
  loadSettings (Vector.replicate 24 0xFFFFFFFF) = Settings.erased ∧
  loadBeatExp (Vector.replicate 24 0xFFFFFFFF) = 13 ∧
  ∀ w : Vector (BitVec 32) 24,
    let x := loadSettings w
    (10 ≤ loadBeatExp w ∧ loadBeatExp w ≤ 16) ∧ (4 ≤ x.echoExp ∧ x.echoExp ≤ 8) ∧
    (1 ≤ x.promptCount ∧ x.promptCount ≤ 64) ∧ (16 ≤ x.gate ∧ x.gate ≤ 4095) ∧ (1 ≤ x.slew ∧ x.slew ≤ 255) ∧
    (1 ≤ x.orphanHold ∧ x.orphanHold ≤ 65535) ∧ (1 ≤ x.drainLimit ∧ x.drainLimit ≤ 4095) ∧
    (1 ≤ x.holdLimit ∧ x.holdLimit ≤ 255) ∧ (8 ≤ x.joinLimit ∧ x.joinLimit ≤ 4095) ∧
    (16 ≤ x.holdoverLimit ∧ x.holdoverLimit ≤ 65535) ∧ x.refinClass ≤ 3 ∧
    (-2047 ≤ x.localTrim ∧ x.localTrim ≤ 2047) ∧ (64 ≤ x.defaultLatency ∧ x.defaultLatency ≤ 65535) ∧
    x.defaultHoldoff ≤ 65535 ∧ (∀ p : PortIx, -4096 ≤ x.asymmetry[p] ∧ x.asymmetry[p] ≤ 4095) ∧
    ∀ (i : Fin 4) (wire : Bool), 1 ≤ (loadPin w i wire).width ∧ (loadPin w i wire).width ≤ 255

/-- Every field of a programmed word reaches the working settings from its bits, clamped into its range; of an erased word it
takes its default (Tables 25 and 34, R166, R178, R179). -/
def Sys2Proof.Claims.FieldsAreLoaded : Prop :=
  ∀ w : Vector (BitVec 32) 24,
    let x := loadSettings w
    let erased (i : Fin 24) : Prop := w[i] = 0xFFFFFFFF
    let at_ (i : Fin 24) (lo n : Nat) : Nat := w[i].toNat / 2 ^ lo % 2 ^ n
    let number (i : Fin 24) (lo n least most default value : Nat) : Prop :=
      (erased i → value = default) ∧ (¬ erased i → value = max least (min (at_ i lo n) most))
    let flag (i : Fin 24) (lo : Nat) (default value : Bool) : Prop :=
      (erased i → value = default) ∧ (¬ erased i → value = w[i].getLsbD lo)
    x.rackIdentity = w[0] ∧ (∀ p : PortIx, flag 1 p.val true x.enable[p]) ∧ flag 1 16 false x.frameWrite ∧
    number 2 0 5 10 16 13 (loadBeatExp w) ∧ number 2 8 4 4 8 6 x.echoExp ∧ number 2 16 7 1 64 16 x.promptCount ∧
    number 3 0 12 16 4095 512 x.gate ∧ number 3 16 8 1 255 8 x.slew ∧ number 4 0 16 1 65535 64 x.orphanHold ∧
    number 4 16 12 1 4095 16 x.drainLimit ∧ number 5 0 8 1 255 2 x.holdLimit ∧ number 5 16 12 8 4095 64 x.joinLimit ∧
    number 6 0 16 16 65535 4096 x.holdoverLimit ∧ flag 7 0 false x.refinEnable ∧ number 7 4 2 0 3 0 x.refinClass ∧
    (erased 7 → x.localTrim = 0) ∧
    (¬ erased 7 → x.localTrim = max (-2047) (w[(7 : Fin 24)].extractLsb 27 16).toInt) ∧
    (∀ p : PortIx, flag 8 p.val false x.ranked[p]) ∧ number 9 0 16 64 65535 1024 x.defaultLatency ∧
    number 9 16 16 0 65535 0 x.defaultHoldoff ∧
    ∀ (p : PortIx) (i : Fin 24), i.val = 10 + p.val / 2 → (erased i → x.asymmetry[p] = 0) ∧
      (¬ erased i → x.asymmetry[p] =
        if p.val % 2 = 0 then (w[i].extractLsb 12 0).toInt else (w[i].extractLsb 28 16).toInt)

/-- A trigger pin takes mode and polarity from the code that the store holds for it, with its line and its pulse width;
the codes 6 and 7 and an erased word give OFF. Fire list, pulse and counters are empty, and the reference level is the
wire's (R148, R153, R178, R179; notes/assumptions/16.md on the line beside a code 6 or 7). Which bits of words 16 and 17
are byte i is the model's choice (notes/assumptions/34.md). -/
def Sys2Proof.Claims.PinsAreLoaded : Prop :=
  ∀ (w : Vector (BitVec 32) 24) (i : PinIx) (wire : Bool),
    let x := loadPin w i wire
    let code := w[(16 : Fin 24)].toNat / 256 ^ i.val % 8
    let width := w[(17 : Fin 24)].toNat / 256 ^ i.val % 256
    (w[(16 : Fin 24)] = 0xFFFFFFFF → x.mode = .off ∧ x.polarity = 0 ∧ x.line = 0) ∧
    (w[(16 : Fin 24)] ≠ 0xFFFFFFFF → x.line.val = w[(16 : Fin 24)].toNat / 256 ^ i.val / 8 % 32 ∧
      (code = 0 ∨ 6 ≤ code → x.mode = .off ∧ x.polarity = 0) ∧
      (1 ≤ code → code ≤ 3 → x.mode = .input ∧ x.polarity = code - 1) ∧
      (4 ≤ code → code ≤ 5 → x.mode = .output ∧ x.polarity = code - 4)) ∧
    (w[(17 : Fin 24)] = 0xFFFFFFFF → x.width = 16) ∧ (w[(17 : Fin 24)] ≠ 0xFFFFFFFF → x.width = max 1 width) ∧
    x.wire = wire ∧ x.reference = wire ∧ x.fires = [] ∧ x.pulse = none ∧ x.counters = ⟨0, 0, 0, 0, 0⟩

/-- What the load of the setup store gives: ranges, fields and pins (R148, R153, R166, R178, R179). Which bits of words 16
and 17 are the byte of a pin is the model's choice (notes/assumptions/34.md). -/
def Obligations.SetupLoadsInRange : Prop :=
  Claims.SettingsInRange ∧ Claims.FieldsAreLoaded ∧ Claims.PinsAreLoaded

/-- RESETN low brings every block to rest: transmitters silent, OUT pins released, ATTN deasserted, no setup operation,
the words as they stand; and until POWER_ON every other command changes nothing (R171). That every other command changes
nothing is the model's reading of rest (notes/assumptions/19.md). -/
def Obligations.RestUntilPowerOn : Prop :=
  (∀ s : State, Runs (exec .resetnLow s) fun t =>
    t.atRest = true ∧ (∀ p second, t.transmits p second = none) ∧ (∀ i, t.pinDrive i = none) ∧ t.attn = false ∧
      t.service.transaction = .idle ∧ t.setup = ⟨s.setup.words, none⟩) ∧
  ∀ (c : Instr) (s : State), s.atRest = true → (∀ present wires, c ≠ .powerOn present wires) → c ≠ .resetnLow →
    exec c s = .next s

/-- The laws hold right after power-on, whatever the store, the cables and the wires. What the machine stands at before
the first command is the model's choice (notes/assumptions/1.md). -/
def Obligations.LawsAtPowerOn : Prop :=
  (State.reset.ClockLaw ∧ State.reset.PoolLaw ∧ State.reset.BlockLaw ∧ State.reset.NoticeLaw ∧ State.reset.TriggerLaw ∧
    State.reset.PortLaw ∧ State.reset.TapLaw ∧ State.reset.StreamLaw ∧ State.reset.RegistryLaw ∧ State.reset.ReferenceLaw ∧ State.reset.RestartLaw ∧
    State.reset.SetupLaw ∧ State.reset.settings.Law) ∧
  ∀ (present : BitVec 12) (wires : BitVec 4) (s : State),
    let t := powerOn present wires s
    t.ClockLaw ∧ t.PoolLaw ∧ t.BlockLaw ∧ t.NoticeLaw ∧ t.TriggerLaw ∧ t.PortLaw ∧ t.TapLaw ∧ t.StreamLaw ∧
      t.RegistryLaw ∧ t.ReferenceLaw ∧ t.RestartLaw ∧ t.SetupLaw ∧ t.settings.Law

/-! ### What every step keeps -/

/-- Each of the 1024 blocks stays in one place, on the free list or in one stream FIFO, and once; the floor sum stays
within 1024 (R106, R108). -/
def Sys2Proof.Claims.StepKeepsPlaces : Prop := ∀ s t : State, s.PoolLaw → step s = .next t → t.PoolLaw

/-- The reference count of every stored block stays the number of taps that hold it pending and ports that are sending it,
and a tap list names the stream's taps (R84, R99, R113, R114, R119). -/
def Sys2Proof.Claims.StepKeepsCounts : Prop :=
  ∀ s t : State, s.PoolLaw → s.BlockLaw → step s = .next t → t.BlockLaw

/-- The laws of the block pool: places, floors and reference counts (R84, R99, R106, R108, R113, R114, R119). -/
def Obligations.StepKeepsPool : Prop :=
  Claims.StepKeepsPlaces ∧ Claims.StepKeepsCounts

/-- No queue ever holds more than 7 notices or more than one REPLY (R158). -/
def Obligations.StepKeepsNotices : Prop := ∀ s t : State, s.NoticeLaw → step s = .next t → t.NoticeLaw

/-- No trigger queue ever holds more than 16 copies, no fire list more than 4 entries, in increasing fire time
(R146, R150). -/
def Obligations.StepKeepsTriggers : Prop := ∀ s t : State, s.TriggerLaw → step s = .next t → t.TriggerLaw

/-- What each port holds agrees with its state (R26, R54, R154). -/
def Obligations.StepKeepsPorts : Prop := ∀ s t : State, s.PortLaw → step s = .next t → t.PortLaw

/-- No frame ID is held by two ports (R26). -/
def Sys2Proof.Claims.StepKeepsRegistry : Prop :=
  ∀ s t : State, s.RegistryLaw → step s = .next t → t.RegistryLaw

/-- The laws of the tap pool (R119). -/
def Obligations.StepKeepsTaps : Prop := ∀ s t : State, s.PortLaw → s.TapLaw → step s = .next t → t.TapLaw

/-- The laws of the stream table's lookups and deadlines (R84, R96, R100). -/
def Sys2Proof.Claims.StepKeepsStreamTable : Prop :=
  ∀ s t : State, s.PortLaw → s.StreamLaw → step s = .next t → t.StreamLaw

/-- Every step keeps the laws of the stream table and of the frame registry (R26, R84, R96, R99, R100). -/
def Obligations.StepKeepsStreams : Prop :=
  Claims.StepKeepsStreamTable ∧ Claims.StepKeepsRegistry

/-- The selected reference is an eligible candidate in ACQUIRING and LOCKED; none is selected, and none is eligible, in FREE
and HOLDOVER (R64, R68). -/
def Obligations.StepKeepsReference : Prop :=
  ∀ s t : State, s.PortLaw → s.RestartLaw → s.ReferenceLaw → step s = .next t → t.ReferenceLaw

/-- Within hub restart every port stays VACANT and the RESTART HUB stays RUNNING (R165, R172). -/
def Obligations.StepKeepsRestart : Prop :=
  ∀ s t : State, s.NoticeLaw → s.PortLaw → s.RestartLaw → step s = .next t → t.RestartLaw

/-- The word of a write in progress reads as erased; a word changes only by the completion of the SETUP WRITE that names
it, or with all the others by a SETUP CLEAR, given by its fields, in a parcel or by SEND, or its completion (R166, R168,
R169). -/
def Sys2Proof.Claims.StepKeepsWords : Prop :=
  ∀ s t : State, s.SetupLaw → step s = .next t → t.SetupLaw ∧ wordsKept s t

/-- The working settings stay in their ranges, whatever SET PARAM gives and whatever the store holds at a power-on or a hub
restart (R166, R170). -/
def Sys2Proof.Claims.StepKeepsSettings : Prop :=
  ∀ s t : State, s.settings.Law → step s = .next t → t.settings.Law

/-- The setup store and the working settings that it gives (R166, R168 to R170). -/
def Obligations.StepKeepsSetup : Prop :=
  Claims.StepKeepsWords ∧ Claims.StepKeepsSettings

/-! ### The link -/

/-- A parcel that the hub forms, of a kind and a body of up to 279 bytes, passes the check where it is received, and is read
there as that kind and that body (R2, R3, R5, R9). -/
def Sys2Proof.Claims.ParcelReadsBack : Prop :=
  ∀ (kind : Byte) (body : List Byte), body.length ≤ 279 →
    checkPasses (parcel kind body) = true ∧ (parcel kind body).length = body.length + 5 ∧
      Inbound.ofBytes (parcel kind body) = Inbound.ofBody kind body

/-- The bytes of an order, a SAMPLES, a TRIGGER and an ECHO-BACK parcel are read back as the fields they were made of
(Tables 27 to 29, R173). -/
def Sys2Proof.Claims.FieldsReadBack : Prop :=
  (∀ (ident : Byte) (c : OrderCode) (args : List Byte), args.length ≤ 32 →
    Inbound.ofBody kindOrder (ident :: c.byte :: args) = some (.order ident c.byte args) ∧
      OrderCode.ofByte c.byte = some c) ∧
  (∀ (tag : Byte) (sequence count : BitVec 16) (stamp : Stamp) (payload : List Byte), payload.length ≤ 256 →
    Inbound.ofBody kindSamples (tag :: (be 2 sequence.toNat ++ be 2 count.toNat ++ be 8 stamp.toNat ++ payload)) =
      some (.samples tag sequence count stamp payload)) ∧
  (∀ (line : Byte) (stamp : Stamp), Inbound.ofBody kindTrigger (line :: be 8 stamp.toNat) = some (.trigger line stamp)) ∧
  ∀ (number : Byte) (h : BitVec 24), Inbound.ofBody kindEchoBack (number :: be 3 h.toNat) = some (.echoBack number h)

/-- The check starts at 0xFFFF, and each bit of each byte, the most significant first, multiplies it by x modulo
x^16 + x^12 + x^5 + 1, whose coefficients are 0x11021 (R3). -/
def Sys2Proof.Claims.CheckRegister : Prop :=
  crc16 [] = 0xFFFF ∧
  ∀ (bytes : List Byte) (b : Byte), (crc16 (bytes ++ [b])).toNat =
    [7, 6, 5, 4, 3, 2, 1, 0].foldl (fun (r i : Nat) =>
      let shifted := 2 * r ^^^ (65536 * (b.toNat / 2 ^ i % 2))
      if 65536 ≤ shifted then shifted ^^^ 0x11021 else shifted) (crc16 bytes).toNat

/-- What the hub forms is what a receiver reads: of whole parcels, of the fields of each kind, and the check that binds them
(R2, R3, R5, R9, R173). -/
def Obligations.ParcelsReadBack : Prop :=
  Claims.ParcelReadsBack ∧ Claims.FieldsReadBack ∧ Claims.CheckRegister

/-- While the framer runs, a symbol that is no error moves the framer by Table 8; nothing else changes but what every
received symbol does (R1, R4, R8). -/
def Sys2Proof.Claims.FramerCollects : Prop :=
  ∀ (p : PortIx) (symbol : Symbol) (f : Fraction) (s : State) (fr : Framer),
    s.atRest = false → (s.ports[p]).state.framerRuns = true → s.noComparison p = true →
    framerNext (s.ports[p]).framer symbol = some fr →
    exec (.receivedSymbol p symbol f) s = .next (modPort p (fun x => { x with framer := fr }) (symbolTaken p f s))

/-- While the framer runs, a symbol that is an error by Table 8 raises the score by 8, and the check-failure counter where it
ends a parcel; a rise that reaches 256 is a loss of the port with cause SCORE, in which the counter rises all the same
(R4, R5, R7, R42). -/
def Sys2Proof.Claims.FramerFails : Prop :=
  ∀ (p : PortIx) (symbol : Symbol) (f : Fraction) (s : State) (fr : Framer) (check : Bool),
    s.atRest = false → (s.ports[p]).state.framerRuns = true → s.noComparison p = true →
    framerFails (s.ports[p]).framer symbol = some (fr, check) →
    ((s.ports[p]).score + 8 < 256 →
      exec (.receivedSymbol p symbol f) s = .next (modPort p (fun x => { x with
        framer := fr, score := x.score + 8
        counters := if check then { x.counters with checkFailures := satAdd x.counters.checkFailures 1 } else x.counters })
        (symbolTaken p f s))) ∧
    (256 ≤ (s.ports[p]).score + 8 → Runs (exec (.receivedSymbol p symbol f) s) fun t => Lost p .score s t ∧
      (t.ports[p]).counters.checkFailures = satAdd (s.ports[p]).counters.checkFailures (if check then 1 else 0))

/-- Table 8 but for a TAIL that ends a collected parcel: the cells without and with an error (R4, R5, R7). The order of
the STREAM ORPHANED notices of several streams is the model's choice (notes/assumptions/23.md). -/
def Obligations.FramerTakesSymbols : Prop :=
  Claims.FramerCollects ∧ Claims.FramerFails

/-- A TAIL that ends a good parcel of an ORDER, SAMPLES, TRIGGER or ECHO-BACK does what the command of that parcel does
with the framer back in OUTSIDE, and with its slot counted where the port is the reference (R5, R10, R64). -/
def Sys2Proof.Claims.GoodParcelIsItsCommand : Prop :=
  ∀ (p : PortIx) (f : Fraction) (s : State), s.atRest = false → (s.ports[p]).state.framerRuns = true →
    s.noComparison p = true → (s.ports[p]).framer.mode = .inside →
    let u := modPort p (fun x => { x with framer := ⟨.outside, []⟩ })
      (if s.isReference (.port p) then modTb (fun t => { t with edges := t.edges + 1 }) s else s)
    let bytes := (s.ports[p]).framer.buffer
    5 ≤ bytes.length → checkPasses bytes = true →
    (∀ ident (c : OrderCode) args, Inbound.ofBytes bytes = some (.order ident c.byte args) →
      exec (.receivedSymbol p .tail f) s = exec (c.command (.port p) ident args f) u) ∧
    (∀ tag sequence count stamp payload, f = 0 →
      Inbound.ofBytes bytes = some (.samples tag sequence count stamp payload) →
      exec (.receivedSymbol p .tail f) s = exec (.samplesInbound p tag sequence count stamp payload) u) ∧
    (∀ line stamp, Inbound.ofBytes bytes = some (.trigger line stamp) →
      exec (.receivedSymbol p .tail f) s = exec (.triggerInbound p line stamp f) u) ∧
    (∀ number h, Inbound.ofBytes bytes = some (.echoBack number h) →
      exec (.receivedSymbol p .tail f) s = exec (.echoBack p number h f) u)

/-- A malformed parcel, and a parcel of a kind that only the hub sends, is counted and discarded; it has lowered the score
(R5, R9, R10). -/
def Sys2Proof.Claims.BadParcelIsCounted : Prop :=
  ∀ (p : PortIx) (f : Fraction) (s : State), s.atRest = false → (s.ports[p]).state.framerRuns = true →
    s.noComparison p = true → (s.ports[p]).framer.mode = .inside →
    5 ≤ (s.ports[p]).framer.buffer.length → checkPasses (s.ports[p]).framer.buffer = true →
    let u := symbolTaken p f s
    (Inbound.ofBytes (s.ports[p]).framer.buffer = none →
      exec (.receivedSymbol p .tail f) s = .next (modPort p (fun x => { x with
        framer := ⟨.outside, []⟩, score := x.score - 1
        counters := { x.counters with malformed := satAdd x.counters.malformed 1 } }) u)) ∧
    (Inbound.ofBytes (s.ports[p]).framer.buffer = some .hubOnly →
      exec (.receivedSymbol p .tail f) s = .next (modPort p (fun x => { x with
        framer := ⟨.outside, []⟩, score := x.score - 1
        counters := { x.counters with stray := satAdd x.counters.stray 1 } }) u))

/-- An ORDER whose code is not in the table, from an origin with an empty slot, occupies the slot and is refused UNKNOWN,
in every state of its port; one that finds the slot occupied is BUSY (R155, R157). -/
def Sys2Proof.Claims.UnknownOrder : Prop :=
  ∀ (p : PortIx) (f : Fraction) (s : State) (ident code : Byte) (args : List Byte), s.inService = true →
    (s.ports[p]).state.framerRuns = true → (s.ports[p]).state ≠ .training → s.noComparison p = true →
    (s.ports[p]).framer.mode = .inside → 5 ≤ (s.ports[p]).framer.buffer.length →
    checkPasses (s.ports[p]).framer.buffer = true →
    Inbound.ofBytes (s.ports[p]).framer.buffer = some (.order ident code args) → code = 0 ∨ 0x1A < code.toNat →
    ∀ q, s.origins[p] = some q → q.hasReply = false →
    let u := modPort p (fun x => { x with framer := ⟨.outside, []⟩, score := x.score - 1 }) (symbolTaken p f s)
    (q.slot = none → exec (.receivedSymbol p .tail f) s = .next (modOrigin (.port p) (fun q => { q with
      slot := some ⟨ident, code, some (.unknown, [])⟩, queue := q.queue ++ [.reply true ident code .unknown []] }) u)) ∧
    (q.slot ≠ none → exec (.receivedSymbol p .tail f) s = .next (modOrigin (.port p) (fun q => { q with
      queue := q.queue ++ [.reply false ident code .busy []] }) u))

/-- A TAIL that ends a collected parcel whose check passes (R5, R9, R10). That the kinds only the hub sends are told
from malformed parcels without a test of their fields is the model's reading (notes/assumptions/9.md). -/
def Obligations.TailJudgesParcel : Prop :=
  Claims.GoodParcelIsItsCommand ∧ Claims.BadParcelIsCounted ∧ Claims.UnknownOrder

/-- Where the framer is stopped a symbol is ignored but for its receive time; in LISTENING it restarts the silence
measurement and counts for the fill run, and the 64th FILL in a row starts the training with its first echo due (R1, R8,
R20, R21). -/
def Obligations.SymbolsOutsideService : Prop :=
  ∀ (p : PortIx) (symbol : Symbol) (f : Fraction) (s : State), s.inService = true →
    let x := s.ports[p]
    let v := modPort p (fun x => { x with lastReceived := (opened f s).now }) (opened f s)
    let u := modPort p (fun x => { x with silenceSince := s.clock.cycle }) v
    (x.state = .vacant ∨ x.state = .parked ∨ x.state = .faulted → exec (.receivedSymbol p symbol f) s = .next v) ∧
    (x.state = .listening → symbol ≠ .fill →
      exec (.receivedSymbol p symbol f) s = .next (modPort p (fun x => { x with
        fillRun := 0
        counters := if 1 ≤ x.fillRun then { x.counters with listenRestarts := satAdd x.counters.listenRestarts 1 }
          else x.counters }) u)) ∧
    (x.state = .listening → x.fillRun + 1 < 64 →
      exec (.receivedSymbol p .fill f) s = .next (modPort p (fun x => { x with fillRun := x.fillRun + 1 }) u)) ∧
    (x.state = .listening → 64 ≤ x.fillRun + 1 →
      exec (.receivedSymbol p .fill f) s = .next (u
        |> modPort p (fun x => { x with
            fillRun := x.fillRun + 1, state := .training, framer := ⟨.outside, []⟩, score := 0 })
        |> modDelay p (fun d => { d with due := some (.training 1), outstanding := none, training := some ⟨1, []⟩ })
        |> noticed .service .portEvent (portEventFields p .listening .training .fillRun x.frame)))

/-- HOLD and GO by port and hold state, whatever the framer is doing, given as received symbols or as commands of their own
(R11). -/
def Obligations.HoldAndGo : Prop :=
  ∀ (p : PortIx) (f : Fraction) (s : State), s.atRest = false → (s.ports[p]).state.framerRuns = true →
    s.noComparison p = true →
    let x := s.ports[p]
    let u := symbolTaken p f s
    exec (.receivedSymbol p .hold f) s = exec (.hold p f) s ∧ exec (.receivedSymbol p .go f) s = exec (.go p f) s ∧
    (x.state = .active → x.held = false → exec (.hold p f) s = .next (modPort p (fun x => { x with
      held := true, holdBeats := 0, counters := { x.counters with holds := satAdd x.counters.holds 1 } }) u)) ∧
    (x.state ≠ .active ∨ x.held = true → exec (.hold p f) s = .next u) ∧
    (x.state = .active → x.held = true →
      exec (.go p f) s = .next (modPort p (fun x => { x with held := false, holdBeats := 0 }) u)) ∧
    (x.state ≠ .active ∨ x.held = false → exec (.go p f) s = .next u)

/-- 256 ticks without a received symbol are a loss while the framer runs, and reset the fill run in LISTENING; in the
other states, and before 256 ticks, nothing happens (R8, R20, R22). That a command whose condition does not hold changes
nothing is the model's choice (notes/assumptions/7.md). The order of the STREAM ORPHANED notices of several streams is the
model's choice (notes/assumptions/23.md). -/
def Obligations.Silence : Prop :=
  ∀ (p : PortIx) (s : State), s.atRest = false →
    let x := s.ports[p]
    (s.silenceOf p < 256 ∨ (x.state.framerRuns = false ∧ x.state ≠ .listening) →
      exec (.silence p) s = .next (begin_ s)) ∧
    (256 ≤ s.silenceOf p → x.state = .listening →
      exec (.silence p) s = .next (modPort p (fun x => { x with
        fillRun := 0, silenceSince := s.clock.cycle
        counters := if 1 ≤ x.fillRun then { x.counters with listenRestarts := satAdd x.counters.listenRestarts 1 }
          else x.counters }) (begin_ s))) ∧
    (256 ≤ s.silenceOf p → x.state.framerRuns = true →
      Runs (exec (.silence p) s) fun t => Lost p .silence s t ∧ SameElsewhere p s t ∧ (t.ports[p]).framer = ⟨.outside, []⟩)

/-- The filter of a PRESENT pin times the level it holds, from the change on; a level that returns within 1024 ticks
restarts it and leaves the filtered presence. A level held for 1024 ticks becomes the filtered presence: a rise starts an
enabled VACANT port; a fall ends LISTENING, PARKED and FAULTED in VACANT and is a loss while the framer runs (R18, R19,
R22). How the command gives the pin is the model's choice (notes/assumptions/12.md). The order of the STREAM ORPHANED
notices of several streams is the model's choice (notes/assumptions/23.md). -/
def Obligations.PresenceChange : Prop :=
  ∀ (p : PortIx) (level : Bool) (held : Nat) (s : State), s.inService = true →
    let x := s.ports[p]
    let since := max x.pinSince (s.clock.cycle - held)
    let sampled := modPort p (fun x => { x with pin := level, pinSince := since }) (begin_ s)
    let out := exec (.presenceChange p level held) s
    (s.clock.cycle - since < 1024 ∨ x.presence = level → out = .next sampled) ∧
    (1024 ≤ s.clock.cycle - since → x.presence = false → level = true →
      (x.state = .vacant → s.settings.enable[p] = true →
        Runs out fun t =>
          (t.ports[p]).state = .listening ∧ (t.ports[p]).presence = true ∧ (t.ports[p]).fillRun = 0 ∧
            (t.ports[p]).silenceSince = s.clock.cycle ∧ t.HoldsNothing p ∧ t.streams = (dropCloses (.port p) s).streams ∧
            t.service.origin = s.service.origin.placeNotice .portEvent
              (portEventFields p .vacant .listening .presence x.frame)) ∧
      (x.state ≠ .vacant ∨ s.settings.enable[p] = false →
        out = .next (modPort p (fun x => { x with presence := true }) sampled))) ∧
    (1024 ≤ s.clock.cycle - since → x.presence = true → level = false →
      (x.state = .vacant → out = .next (modPort p (fun x => { x with presence := false }) sampled)) ∧
      (x.state = .listening ∨ x.state = .parked ∨ x.state = .faulted →
        Runs out fun t =>
          (t.ports[p]).state = .vacant ∧ (t.ports[p]).presence = false ∧ (t.ports[p]).failures = 0 ∧ t.HoldsNothing p ∧
            t.service.origin = s.service.origin.placeNotice .portEvent
              (portEventFields p x.state .vacant .presence x.frame)) ∧
      (x.state.framerRuns = true → Runs out fun t => Lost p .presence s t ∧ (t.ports[p]).state = .vacant))

/-! ### The transmit side -/

/-- At a free boundary the transmitter launches what the arbiter chooses, as the command of that launch does; where the
arbiter has nothing, FILL goes out and nothing changes (R6, R13). That R13 is followed where R55 lets a waiting trigger go
before a due echo is the model's reading (notes/assumptions/36.md). That nothing changes where the transmitter is busy is
the model's choice (notes/assumptions/7.md). Where in the cycle a slot begins is the model's choice
(notes/assumptions/22.md). -/
def Obligations.FreeBoundaryChoice : Prop :=
  ∀ (p : PortIx) (second : Bool) (s : State), s.atRest = false →
    let u := opened (slotFraction second) s
    (s.isFree p second = false ∨ s.pick p = none → exec (.freeBoundary p second) s = .next u) ∧
    (∀ n, s.pick p = some (.beat n) → exec (.freeBoundary p second) s = exec (.beatLaunch p second) s) ∧
    (∀ x, s.pick p = some (.echo x) → exec (.freeBoundary p second) s = exec (.echoLaunch p second) s) ∧
    (∀ c, s.pick p = some (.trigger c) → exec (.freeBoundary p second) s = exec (.triggerLaunch p second) s) ∧
    (∀ e, s.pick p = some (.entry e) → exec (.freeBoundary p second) s = exec (.noticeReplyLaunch p second) s) ∧
    (∀ t, s.pick p = some (.samples t) → exec (.freeBoundary p second) s = exec (.samplesLaunch p second) s)

/-- A due beat goes first on an ACTIVE or LEAVING port, with its fields fixed at the launch: the stamp is the launch time plus
the port's delay estimate (R12, R13, R14, R80). -/
def Sys2Proof.Claims.BeatLaunch : Prop :=
  ∀ (p : PortIx) (second : Bool) (s : State) (n : Beat), s.atRest = false → s.isFree p second = true →
    ((s.ports[p]).state = .active ∨ (s.ports[p]).state = .leaving) → (s.egress[p]).dueBeat = some n →
    let u := opened (slotFraction second) s
    let body := be 4 n.toNat ++ be 8 (u.now + (s.estimateOf p).setWidth 64).toNat ++ be 1 s.tb.state.code
      ++ be 1 (sourceCode s.tb.selected) ++ be 1 (s.classOf s.tb.selected) ++ be 1 p.val
    exec (.beatLaunch p second) s =
      .next (modEgress p (fun e => { e with dueBeat := none }) (launched p second .plain (parcel 0x11 body) u))

/-- The due echo is launched in TRAINING, and in ACTIVE after the due beat: it becomes the outstanding echo with the
launch time as its send time and a deadline 4096 ticks on, and the next echo number rises (R13, R45). -/
def Sys2Proof.Claims.EchoLaunch : Prop :=
  ∀ (p : PortIx) (second : Bool) (s : State) (x : Purpose), s.atRest = false → s.isFree p second = true →
    ((s.ports[p]).state = .training ∨ (s.ports[p]).state = .active ∧ (s.egress[p]).dueBeat = none) →
    (s.delays[p]).due = some x →
    let u := opened (slotFraction second) s
    let number := (s.delays[p]).nextEcho
    exec (.echoLaunch p second) s = .next (modDelay p (fun d => { d with
      nextEcho := number + 1, due := none, outstanding := some ⟨number, u.now, u.now + 1048576, x⟩ })
      (launched p second .plain (parcel 0x12 [number]) u))

/-- The head of the trigger queue is launched on an ACTIVE port behind a due beat and a due echo; it is LATE where launch time
plus estimate plus 16 ticks exceeds its fire time, and then counts for its line (R13, R15, R147). -/
def Sys2Proof.Claims.TriggerLaunch : Prop :=
  ∀ (p : PortIx) (second : Bool) (s : State) (c : TriggerCopy) (cs : List TriggerCopy), s.atRest = false →
    s.isFree p second = true → (s.ports[p]).state = .active → (s.egress[p]).dueBeat = none → (s.delays[p]).due = none →
    (s.triggers[p]).copies = c :: cs →
    let u := opened (slotFraction second) s
    let late : Bool := decide (c.fire.toNat < (u.now + (s.estimateOf p).setWidth 64 + 4096).toNat)
    let flags := (if late then 1 else 0) + (if c.clamped then 2 else 0) + (if c.overrun then 4 else 0)
    let body := be 1 c.line.val ++ c.origin :: (be 8 c.fire.toNat ++ be 1 flags ++ [c.merged])
    exec (.triggerLaunch p second) s = .next (launched p second .plain (parcel 0x31 body) u
      |> modTriggers p (fun q => { q with copies := cs })
      |> modLine c.line (fun x => { x with late := if late then satAdd x.late 1 else x.late }))

/-- The launches that go before notices, replies and samples: beat, echo, trigger (R12 to R15, R45, R80, R147). That a due
echo goes before a waiting trigger, by R13 against the words of R55, is the model's reading (notes/assumptions/36.md).
Where in the cycle a slot begins is the model's choice (notes/assumptions/22.md). -/
def Obligations.UrgentLaunches : Prop :=
  Claims.BeatLaunch ∧ Claims.EchoLaunch ∧ Claims.TriggerLaunch

/-- The head of the notice/reply queue is launched and leaves it: in JOINING and ADMITTED at once, in LEAVING behind a due
beat, in ACTIVE behind beat, echo and triggers. The launch of the order's own reply empties the order slot; that of a BUSY
answer lets a reply held in the slot follow (R12, R13, R15, R156, R157). -/
def Sys2Proof.Claims.QueueHeadLaunch : Prop :=
  ∀ (p : PortIx) (second : Bool) (s : State) (q : OriginState) (e : Entry) (rest : List Entry), s.atRest = false →
    s.isFree p second = true → s.origins[p] = some q → q.queue = e :: rest →
    ((s.ports[p]).state = .joining ∨ (s.ports[p]).state = .admitted ∨
      ((s.ports[p]).state = .leaving ∧ (s.egress[p]).dueBeat = none ∧
        (rest ≠ [] ∨ s.drainSets[p] ≠ [] ∨ q.closed = true)) ∨
      ((s.ports[p]).state = .active ∧ (s.egress[p]).dueBeat = none ∧ (s.delays[p]).due = none ∧
        (s.triggers[p]).copies = [])) →
    let u := launched p second (if e.isFarewell then .farewell else .plain) e.bytes (opened (slotFraction second) s)
    let left (q' : OriginState) : State := { u with origins := u.origins.set p (some q') }
    (∀ lost fields k, e = .notice k lost fields →
      exec (.noticeReplyLaunch p second) s = .next (left { q with queue := rest })) ∧
    (∀ i c r b, e = .reply true i c r b →
      exec (.noticeReplyLaunch p second) s = .next (left { q with queue := rest, slot := none })) ∧
    (∀ i c r b i' c' r' b', e = .reply false i c r b → q.slot = some ⟨i', c', some (r', b')⟩ →
      rest.all (fun x => !x.isReply) = true →
      exec (.noticeReplyLaunch p second) s = .next (left { q with queue := rest ++ [.reply true i' c' r' b'] })) ∧
    (∀ i c r b, e = .reply false i c r b → (q.slot = none ∨ ∃ i' c', q.slot = some ⟨i', c', none⟩) →
      exec (.noticeReplyLaunch p second) s = .next (left { q with queue := rest }))

/-- The last REPLY in the queue of a LEAVING port whose streams have drained is launched: with the order's own reply, or a
BUSY answer behind which no reply waits, the queue is empty and FAREWELL is queued in that event, with the lost count and
the closed mark; a reply held in the slot joins the queue first, and FAREWELL waits for it (R33, R156, R157, R159). -/
def Sys2Proof.Claims.LastReplyLaunch : Prop :=
  ∀ (p : PortIx) (second : Bool) (s : State) (q : OriginState) (e : Entry), s.atRest = false →
    s.isFree p second = true → s.origins[p] = some q → q.queue = [e] → (s.ports[p]).state = .leaving →
    (s.egress[p]).dueBeat = none → s.drainSets[p] = [] → q.closed = false →
    let u := launched p second .plain e.bytes (opened (slotFraction second) s)
    let left (q' : OriginState) : State := { u with origins := u.origins.set p (some q') }
    (∀ i c r b, e = .reply true i c r b →
      exec (.noticeReplyLaunch p second) s = .next (left ⟨none, [.notice .farewell q.lost []], 0, true⟩)) ∧
    (∀ i c r b, e = .reply false i c r b → (q.slot = none ∨ ∃ i' c', q.slot = some ⟨i', c', none⟩) →
      exec (.noticeReplyLaunch p second) s = .next (left ⟨q.slot, [.notice .farewell q.lost []], 0, true⟩)) ∧
    (∀ i c r b i' c' r' b', e = .reply false i c r b → q.slot = some ⟨i', c', some (r', b')⟩ →
      exec (.noticeReplyLaunch p second) s = .next (left { q with queue := [.reply true i' c' r' b'] }))

/-- The launches from the notice/reply queue, the last of a departing port among them (R12, R13, R15, R33, R156, R157, R159).
Where in the cycle a slot begins is the model's choice (notes/assumptions/22.md). -/
def Obligations.NoticeReplyLaunch : Prop :=
  Claims.QueueHeadLaunch ∧ Claims.LastReplyLaunch

/-- Sample service chooses among the port's taps with pending blocks: under RANKED only those whose stream has the lowest
priority value; of these the smallest tap number above the rotation pointer, or else the smallest (R16, R135, R136). -/
def Sys2Proof.Claims.SampleServiceChoice : Prop :=
  ∀ (p : PortIx) (s : State),
    let may (u : TapIx) : Prop := u ∈ s.eligibleTaps p ∧
      (s.settings.ranked[p] = true → ∀ v ∈ s.eligibleTaps p, s.priorityOf u ≤ min 3 (s.priorityOf v))
    (s.chooseTap p = none → ∀ u, ¬ may u) ∧
    ∀ t, s.chooseTap p = some t → may t ∧ ∀ u, may u →
      ((s.egress[p]).rotation < t.val → (s.egress[p]).rotation < u.val → t.val ≤ u.val) ∧
      (t.val ≤ (s.egress[p]).rotation → u.val ≤ (s.egress[p]).rotation ∧ t.val ≤ u.val)

/-- Sample service launches the head block of the chosen tap: the block goes in flight, the delivery sequence rises, the
owed gap is delivered, the rotation pointer takes the tap's number; the parcel carries the tap's, the block's and the
stream's fields, its payload byte-reversed where the tap asks (R16, R132, R133, R135, R175). -/
def Sys2Proof.Claims.SamplesLaunch : Prop :=
  ∀ (p : PortIx) (second : Bool) (s : State) (t : TapIx) (x : Tap) (r : Stream) (k : Block) (bs : List Nat),
    s.atRest = false → s.isFree p second = true → (s.ports[p]).state = .active → (s.ports[p]).held = false →
    (s.egress[p]).dueBeat = none → (s.delays[p]).due = none → (s.triggers[p]).copies = [] →
    (∀ q, s.origins[p] = some q → q.queue = []) → s.chooseTap p = some t → s.taps[t] = some x →
    s.streams[x.stream] = some r → x.pending = k.number :: bs → r.fifo.find? (fun b => b.number == k.number) = some k →
    let flags := (if x.owed = 0 then 0 else 1) + (if k.slip then 2 else 0) + (if k.resumed then 4 else 0)
      + (if x.settings.reversed then 8 else 0)
    let payload := if x.settings.reversed then reverseSamples r.width k.payload.length k.payload else k.payload
    let body := x.tag :: (be 1 x.stream.val ++ be 1 flags ++ be 1 r.width ++ be 2 x.sequence.toNat
      ++ be 2 k.sequence.toNat ++ be 2 x.owed.toNat ++ be 2 k.count.toNat ++ be 8 k.stamp.toNat ++ be 3 r.period ++ payload)
    exec (.samplesLaunch p second) s =
      .next (launched p second (.samples x.stream k.number t) (parcel 0x21 body) (opened (slotFraction second) s)
        |> modEgress p (fun e => { e with rotation := t.val })
        |> modTap t (fun x => { x with
            pending := bs, inFlight := some k.number, sequence := x.sequence + 1, owed := 0 }))

/-- A reversed payload keeps its samples in order and turns round the bytes of each (R133). -/
def Sys2Proof.Claims.SamplesReversed : Prop :=
  ∀ (width count : Nat) (payload : List Byte), 1 ≤ width → payload.length = width * count →
    let reversed := reverseSamples width payload.length payload
    reversed.length = payload.length ∧ ∀ j i : Nat, j < count → i < width →
      reversed[width * j + i]? = payload[width * j + (width - 1 - i)]?

/-- Sample service: the tap it chooses and the parcel it launches (R16, R132, R133, R135, R136). Where in the cycle a slot
begins is the model's choice (notes/assumptions/22.md). -/
def Obligations.SampleService : Prop :=
  Claims.SampleServiceChoice ∧ Claims.SamplesLaunch ∧ Claims.SamplesReversed

/-- At the TAIL of a delivered SAMPLES parcel its reference is released: the block's count falls by 1, and at 0 the
block leaves its stream's FIFO for the tail of the free list, and ease is judged, with EASE or RESUME to the producer and no
other notice; the tap, if it is still there, has no block in flight and the transmitter is free
(R6, R114, R115, R116, R134). That a command whose condition does not hold
changes nothing is the model's choice (notes/assumptions/7.md). -/
def Obligations.SamplesTail : Prop :=
  ∀ (p : PortIx) (s : State) (st : StreamIx) (r : Stream) (k : Block) (t : TapIx) (bytes : List Byte) (start : Nat)
    (before after : List Block),
    s.atRest = false → (s.egress[p]).flight = some ⟨.samples st k.number t, bytes, start⟩ →
    start + bytes.length + 2 ≤ 2 * s.clock.cycle + 1 → s.streams[st] = some r → r.state ≠ .draining →
    r.fifo = before ++ k :: after → (∀ b ∈ before, b.number ≠ k.number) →
    let n := before.length + after.length
    let fields := be 1 st.val ++ r.tag :: (be 2 n ++ be 2 r.depth)
    let notices : Notices :=
      if 2 ≤ k.refs then []
      else if r.eased = true ∧ n < r.depth / 2 then [(.resume, fields)]
      else if r.eased = false ∧ 3 * r.depth / 4 ≤ n then [(.ease, fields)] else []
    Runs (exec (.samplesTail p) s) fun u =>
      (u.egress[p]).flight = none ∧ u.service = s.service ∧
      (∀ q : PortIx, u.origin (.port q) = if r.producer = some q then s.told (.port q) notices else s.origin (.port q)) ∧
      (∀ x, s.taps[t] = some x → x.consumer = p → x.inFlight = some k.number →
        u.taps[t] = some { x with inFlight := none }) ∧
      (∀ v : TapIx, v ≠ t → u.taps[v] = s.taps[v]) ∧
      (∀ a : StreamIx, a ≠ st → u.streams[a] = s.streams[a]) ∧
      (∃ r', u.streams[st] = some r' ∧ { r' with eased := r.eased, fifo := r.fifo } = r ∧
        (2 ≤ k.refs → r'.fifo = before ++ { k with refs := k.refs - 1 } :: after ∧ u.store = s.store ∧
          r'.eased = r.eased) ∧
        (k.refs ≤ 1 → r'.fifo = before ++ after ∧ u.store = { s.store with free := s.store.free ++ [k.number] } ∧
          r'.eased = if r.eased then decide (r.depth / 2 ≤ r'.fifo.length)
            else decide (3 * r.depth / 4 ≤ r'.fifo.length)))

/-- Both parking conditions of a LEAVING port hold: FAREWELL is queued, with the lost count, and the closed mark set; it is
queued within the launch that empties the queue of a port whose streams have drained (R33, R159). -/
def Sys2Proof.Claims.FarewellQueued : Prop :=
  ∀ (p : PortIx) (s : State) (q : OriginState), s.atRest = false → s.origins[p] = some q →
    ((s.ports[p]).state = .leaving → s.drainSets[p] = [] → q.queue = [] → q.closed = false →
      exec (.farewellQueued p) s = .next { begin_ s with
        origins := s.origins.set p (some ⟨q.slot, [.notice .farewell q.lost []], 0, true⟩) }) ∧
    ((s.ports[p]).state ≠ .leaving ∨ s.drainSets[p] ≠ [] ∨ q.queue ≠ [] ∨ q.closed = true →
      exec (.farewellQueued p) s = .next (begin_ s)) ∧
    (∀ second k lost fields, s.isFree p second = true → (s.ports[p]).state = .leaving → (s.egress[p]).dueBeat = none →
      s.drainSets[p] = [] → q.queue = [.notice k lost fields] → k ≠ .farewell → q.closed = false →
      exec (.noticeReplyLaunch p second) s = .next { launched p second .plain (Entry.notice k lost fields).bytes
        (opened (slotFraction second) s) with
          origins := s.origins.set p (some ⟨q.slot, [.notice .farewell q.lost []], 0, true⟩) })

/-- At the TAIL of its FAREWELL a LEAVING port parks and gives up all it holds; a port that is no longer LEAVING only
frees its transmitter (R33, R35). -/
def Sys2Proof.Claims.FarewellTail : Prop :=
  ∀ (p : PortIx) (s : State) (bytes : List Byte) (start : Nat), s.inService = true →
    (s.egress[p]).flight = some ⟨.farewell, bytes, start⟩ → start + bytes.length + 2 ≤ 2 * s.clock.cycle + 1 →
    ((s.ports[p]).state = .leaving →
      Runs (exec (.farewellTail p) s) fun t =>
        (t.ports[p]).state = .parked ∧ t.HoldsNothing p ∧ (t.egress[p]).flight = none ∧ t.frameId p = none ∧
          t.service.origin = s.service.origin.placeNotice .portEvent
            (portEventFields p .leaving .parked .farewell (s.ports[p]).frame) ∧
          (∀ q : PortIx, q ≠ p → t.ports[q] = s.ports[q] ∧ t.origins[q] = s.origins[q])) ∧
    ((s.ports[p]).state ≠ .leaving → Runs (exec (.farewellTail p) s) fun t =>
        (t.egress[p]).flight = none ∧ t.ports = s.ports ∧ t.origins = s.origins ∧ t.service = s.service)

/-- How a planned departure ends: FAREWELL queued, at the latest in the launch of the last notice, reply or BUSY answer, and
its TAIL (R33, R35, R156, R159). That a command whose condition does not
hold changes nothing is the model's choice (notes/assumptions/7.md). Where in the cycle a slot begins is the model's
choice (notes/assumptions/22.md). -/
def Obligations.Farewell : Prop :=
  Claims.FarewellQueued ∧ Claims.LastReplyLaunch ∧ Claims.FarewellTail

/-! ### Cable delay -/

/-- The delay arithmetic: x = r - h + a; below 0 NEGATIVE; else d = x/2 rounded half up; above 65535 RANGE (R48). -/
def Sys2Proof.Claims.Measurement : Prop :=
  ∀ (r : Nat) (h : BitVec 24) (a : Int),
    ((r : Int) - h.toNat + a < 0 → measure r h a = .negative) ∧
    (131071 ≤ (r : Int) - h.toNat + a → measure r h a = .range) ∧
    ∀ d : BitVec 16, measure r h a = .valid d ↔
      (2 * (d.toNat : Int) - 1 ≤ (r : Int) - h.toNat + a ∧ (r : Int) - h.toNat + a ≤ 2 * d.toNat ∧
        0 ≤ (r : Int) - h.toNat + a)

/-- The estimate of a training does not depend on the order of its samples, lies within them, and is unmoved by one outlier at
either end (R52). -/
def Sys2Proof.Claims.TrimmedMean : Prop :=
  ∀ valid : List Nat, 6 ≤ valid.length → valid.length ≤ 8 → (∀ x ∈ valid, x ≤ 65535) →
    (∀ w, List.Perm w valid → trimmedMean w = trimmedMean valid) ∧
    (∀ lo hi mid, List.Perm valid (lo :: hi :: mid) → (∀ x ∈ mid, lo ≤ x ∧ x ≤ hi) →
      trimmedMean valid = (2 * mid.sum + mid.length) / (2 * mid.length) ∧
      (∀ b, (∀ x ∈ mid, x ≤ b) → trimmedMean valid ≤ b) ∧ (∀ b, (∀ x ∈ mid, b ≤ x) → b ≤ trimmedMean valid))

/-- The measurement of one exchange and the estimate of one training (R48, R52). -/
def Obligations.DelayArithmetic : Prop :=
  Claims.Measurement ∧ Claims.TrimmedMean

/-- An ECHO-BACK that answers no outstanding echo is stray, in every state in which the framer runs; where no framer runs none
arrives (R46). -/
def Sys2Proof.Claims.StrayEchoBack : Prop :=
  ∀ (p : PortIx) (number : Byte) (h : BitVec 24) (f : Fraction) (s : State), s.atRest = false →
    ((s.ports[p]).state.framerRuns = true →
      (∀ x, (s.delays[p]).outstanding = some x → x.number ≠ number ∧ passed (opened f s).now x.deadline = false) →
      exec (.echoBack p number h f) s = .next (modPort p (fun x => { x with
        counters := { x.counters with stray := satAdd x.counters.stray 1 } }) (parcelTaken p f s))) ∧
    ((s.ports[p]).state.framerRuns = false → exec (.echoBack p number h f) s = .next (opened f s))

/-- A training round before the eighth ends with its sample, and the next round starts with its echo due: a valid measurement
gives its value; NEGATIVE or RANGE gives MISSING and an echo reject; an expiry gives MISSING and a missed echo
(R46, R47, R48, R50, R51). -/
def Sys2Proof.Claims.TrainingRound : Prop :=
  ∀ (p : PortIx) (s : State) (x : Echo) (k n : Nat) (samples : List (Option (BitVec 16))), s.atRest = false →
    (s.delays[p]).outstanding = some x → x.purpose = .training k → (s.delays[p]).training = some ⟨n, samples⟩ → n < 8 →
    let next (sample : Option (BitVec 16)) (c : PortCounters → PortCounters) (u : State) : State :=
      u |> modDelay p (fun d => { d with
            outstanding := none, due := some (.training (n + 1)), training := some ⟨n + 1, samples ++ [sample]⟩ })
        |> modPort p (fun y => { y with counters := c y.counters })
    (∀ h f, (s.ports[p]).state.framerRuns = true →
      let u := parcelTaken p f s
      passed u.now x.deadline = false →
      let m := measure (u.now - x.sent).toNat h s.settings.asymmetry[p]
      (∀ d, m = .valid d → exec (.echoBack p x.number h f) s = .next (next (some d) id u)) ∧
      (m = .negative ∨ m = .range → exec (.echoBack p x.number h f) s =
        .next (next none (fun c => { c with echoRejects := satAdd c.echoRejects 1 }) u))) ∧
    (reached s.now x.deadline = true → exec (.echoAnswerExpiry p) s =
      .next (next none (fun c => { c with missedEchoes := satAdd c.missedEchoes 1 }) (begin_ s)))

/-- The eighth round judges the training: with six valid samples or more the port enters JOINING with their trimmed mean
as its estimate, an empty order slot and queue and a join deadline; with fewer it fails, and the third failure in a row
faults the port (R23, R24, R25, R50, R52). -/
def Sys2Proof.Claims.TrainingJudged : Prop :=
  ∀ (p : PortIx) (s : State) (x : Echo) (k : Nat) (samples : List (Option (BitVec 16))),
    s.inService = true → (s.ports[p]).state = .training →
    (s.delays[p]).outstanding = some x → x.purpose = .training k → (s.delays[p]).training = some ⟨8, samples⟩ →
    let judged (sample : Option (BitVec 16)) (c : PortCounters → PortCounters) (u : State)
        (out : Host.Outcome State Fault Refusal) : Prop :=
      let valid := ((samples ++ [sample]).filterMap id).map (·.toNat)
      (6 ≤ valid.length → out = .next (u
        |> modDelay p (fun y => ⟨y.nextEcho, none, none, none,
            some ⟨BitVec.ofNat 16 (trimmedMean valid), .prompt, 0, 0⟩⟩)
        |> modPort p (fun y => { y with
            state := .joining, joinDeadline := some (s.tb.beat + BitVec.ofNat 32 s.settings.joinLimit)
            counters := c y.counters })
        |> (fun v => { v with origins := v.origins.set p (some ⟨none, [], 0, false⟩) })
        |> noticed .service .portEvent (portEventFields p .training .joining .trained (s.ports[p]).frame))) ∧
      (valid.length < 6 → Runs out fun t =>
        (t.ports[p]).state = (if 3 ≤ (s.ports[p]).failures + 1 then .faulted else .listening) ∧
        (t.ports[p]).failures = (s.ports[p]).failures + 1 ∧ t.HoldsNothing p ∧
        (t.ports[p]).counters.trainingFailures = satAdd (s.ports[p]).counters.trainingFailures 1)
    (∀ h f,
      let u := parcelTaken p f s
      passed u.now x.deadline = false →
      let m := measure (u.now - x.sent).toNat h s.settings.asymmetry[p]
      (∀ d, m = .valid d → judged (some d) id u (exec (.echoBack p x.number h f) s)) ∧
      (m = .negative ∨ m = .range → judged none (fun c => { c with echoRejects := satAdd c.echoRejects 1 }) u
        (exec (.echoBack p x.number h f) s))) ∧
    (reached s.now x.deadline = true → judged none (fun c => { c with missedEchoes := satAdd c.missedEchoes 1 })
      (begin_ s) (exec (.echoAnswerExpiry p) s))

/-- The rounds of a training and its judgement (R23 to R25, R46 to R52). Deadlines are compared across the wrap of rack
time (notes/assumptions/15.md). -/
def Obligations.TrainingRounds : Prop :=
  Claims.TrainingRound ∧ Claims.TrainingJudged

/-- A valid steady measurement ends the run of missing echoes and meets the gate: beyond the gate it is rejected, a fourth
in a row re-seats the estimate; within the gate PROMPT takes it whole and counts towards STEADY, STEADY moves by at most
the slew (R30, R56, R57). -/
def Obligations.SteadyMeasurement : Prop :=
  ∀ (p : PortIx) (h : BitVec 24) (f : Fraction) (s : State) (x : Echo) (e : Estimate) (m : BitVec 16),
    s.atRest = false → (s.ports[p]).state.framerRuns = true → (s.delays[p]).outstanding = some x → x.purpose = .steady →
    (s.delays[p]).estimate = some e →
    let u := parcelTaken p f s
    passed u.now x.deadline = false → measure (u.now - x.sent).toNat h s.settings.asymmetry[p] = .valid m →
    let gap : Int := (m.toNat : Int) - e.value.toNat
    let accepted (v : BitVec 16) : Estimate :=
      if e.mode = .steady then ⟨v, .steady, e.accepted, 0⟩
      else ⟨v, if s.settings.promptCount ≤ e.accepted + 1 then .steady else .prompt, e.accepted + 1, 0⟩
    let after (e' : Estimate) (rejects : Nat) : State := u
      |> modDelay p (fun d => { d with outstanding := none, estimate := some e' })
      |> modPort p (fun y => { y with
          missRun := 0, counters := { y.counters with echoRejects := satAdd y.counters.echoRejects rejects } })
    (3 ≤ e.rejects → exec (.echoBack p x.number h f) s = .next (after (accepted m) 0)) ∧
    (e.rejects < 3 → (s.settings.gate : Int) < |gap| →
      exec (.echoBack p x.number h f) s = .next (after { e with rejects := e.rejects + 1 } 1)) ∧
    (e.rejects < 3 → |gap| ≤ s.settings.gate → e.mode = .prompt →
      exec (.echoBack p x.number h f) s = .next (after (accepted m) 0)) ∧
    (e.rejects < 3 → |gap| ≤ s.settings.gate → e.mode = .steady → ∃ v : BitVec 16,
      (v.toNat : Int) = e.value.toNat + max (-(s.settings.slew : Int)) (min gap s.settings.slew) ∧
      exec (.echoBack p x.number h f) s = .next (after (accepted v) 0))

/-- A missing steady exchange, by expiry or by a rejected measurement, raises the run of missing echoes and leaves the
estimate; the eighth in a row is a loss of the port with cause ECHO (R30, R47, R48, R56). -/
def Sys2Proof.Claims.SteadyMiss : Prop :=
  ∀ (p : PortIx) (s : State) (x : Echo), s.atRest = false → (s.delays[p]).outstanding = some x → x.purpose = .steady →
    (s.ports[p]).state.framerRuns = true →
    (reached s.now x.deadline = false → exec (.echoAnswerExpiry p) s = .next (begin_ s)) ∧
    (reached s.now x.deadline = true →
      ((s.ports[p]).missRun + 1 < 8 → exec (.echoAnswerExpiry p) s = .next (begin_ s
        |> modDelay p (fun d => { d with outstanding := none })
        |> modPort p (fun y => { y with
            missRun := y.missRun + 1
            counters := { y.counters with missedEchoes := satAdd y.counters.missedEchoes 1 } }))) ∧
      (8 ≤ (s.ports[p]).missRun + 1 → Runs (exec (.echoAnswerExpiry p) s) fun t =>
        Lost p .echo s t ∧ (t.ports[p]).counters.missedEchoes = satAdd (s.ports[p]).counters.missedEchoes 1)) ∧
    ∀ h f, let u := parcelTaken p f s
      passed u.now x.deadline = false →
      let m := measure (u.now - x.sent).toNat h s.settings.asymmetry[p]
      (m = .negative ∨ m = .range) →
      ((s.ports[p]).missRun + 1 < 8 → exec (.echoBack p x.number h f) s = .next (u
        |> modDelay p (fun d => { d with outstanding := none })
        |> modPort p (fun y => { y with
            missRun := y.missRun + 1
            counters := { y.counters with echoRejects := satAdd y.counters.echoRejects 1 } }))) ∧
      (8 ≤ (s.ports[p]).missRun + 1 → Runs (exec (.echoBack p x.number h f) s) (Lost p .echo s))

/-- An ECHO-BACK that arrives after the answer deadline finds its exchange MISSING, in this event at the latest, and is
stray: the missed echo counts, the steady run rises or the training round ends without a sample; the eighth miss in a row
is the loss, and then no framer has taken the parcel (R46, R47, R51, R56). That a deadline inside a cycle expires with the
next command of the port or at the next cycle is the model's choice (notes/assumptions/29.md). -/
def Sys2Proof.Claims.LateEchoBack : Prop :=
  ∀ (p : PortIx) (number : Byte) (h : BitVec 24) (f : Fraction) (s : State) (x : Echo), s.atRest = false →
    (s.ports[p]).state.framerRuns = true → (s.delays[p]).outstanding = some x →
    let u := parcelTaken p f s
    let late (d : Delay → Delay) (g : Port → Port) : State := u
      |> modDelay p (fun y => d { y with outstanding := none })
      |> modPort p (fun y => g { y with counters := { y.counters with
          missedEchoes := satAdd y.counters.missedEchoes 1, stray := satAdd y.counters.stray 1 } })
    passed u.now x.deadline = true →
    (x.purpose = .steady → (s.ports[p]).missRun + 1 < 8 → exec (.echoBack p number h f) s =
      .next (late id (fun y => { y with missRun := y.missRun + 1 }))) ∧
    (x.purpose = .steady → 8 ≤ (s.ports[p]).missRun + 1 → Runs (exec (.echoBack p number h f) s) fun t =>
      Lost p .echo s t ∧ (t.ports[p]).counters.stray = (s.ports[p]).counters.stray ∧
        (t.ports[p]).counters.missedEchoes = satAdd (s.ports[p]).counters.missedEchoes 1) ∧
    (∀ k n samples, x.purpose = .training k → (s.delays[p]).training = some ⟨n, samples⟩ → n < 8 →
      exec (.echoBack p number h f) s = .next (late (fun y => { y with
        due := some (.training (n + 1)), training := some ⟨n + 1, samples ++ [none]⟩ }) id))

/-- Exchanges that give no measurement (R30, R46 to R48, R51, R56). That a command whose condition does not hold changes
nothing is the model's choice (notes/assumptions/7.md). Deadlines are compared across the wrap of rack time
(notes/assumptions/15.md). The order of the STREAM ORPHANED notices of several streams is the model's choice
(notes/assumptions/23.md). -/
def Obligations.EchoMisses : Prop :=
  Claims.StrayEchoBack ∧ Claims.SteadyMiss ∧ Claims.LateEchoBack

/-! ### The beat -/

/-- A beat falls due when rack time has reached its due time: its number is rack time in ticks div P. It becomes due on every
ACTIVE and LEAVING port, admits the ports whose epoch it is, counts for the hold timers; an estimate goes only where a join
deadline expires. Rack time, settings, pins and lines stand; before the due time nothing happens (R14, R25, R28, R29, R79). -/
def Sys2Proof.Claims.BeatFallsDue : Prop :=
  ∀ s : State, s.atRest = false →
    let n : Beat := BitVec.ofNat 32 (s.clock.rackTime.toNat / 256 / 2 ^ s.tb.beatExp)
    (n = s.tb.beat → exec .beatDue s = .next (begin_ s)) ∧
    (n ≠ s.tb.beat → Runs (exec .beatDue s) fun t =>
      t.tb.beat = n ∧ sameRackTime s t ∧ t.settings = s.settings ∧ t.pins = s.pins ∧ t.lines = s.lines ∧
      ∀ p : PortIx,
        ((s.ports[p]).state = .active ∨ (s.ports[p]).state = .leaving →
          (t.egress[p]).dueBeat = some ((s.egress[p]).dueBeat.getD n)) ∧
        (t.delays[p]).estimate = (if (s.ports[p]).state = .joining ∧ (s.ports[p]).joinDeadline = some n then none
          else (s.delays[p]).estimate) ∧
        ((s.ports[p]).state = .admitted → (s.ports[p]).epoch = some n → (t.ports[p]).state = .active) ∧
        ((s.ports[p]).state = .admitted → (s.ports[p]).epoch ≠ some n → t.ports[p] = s.ports[p]) ∧
        ((s.ports[p]).state = .active → (s.ports[p]).held = true → (s.ports[p]).holdBeats + 1 < s.settings.holdLimit →
          (t.ports[p]).holdBeats = (s.ports[p]).holdBeats + 1))

/-- The steady echo of an ACTIVE port falls due on its own beat of the echo interval, never beside another echo
(R45, R55). -/
def Sys2Proof.Claims.SteadyEchoDue : Prop :=
  ∀ (p : PortIx) (s : State), s.atRest = false → (s.ports[p]).state = .active →
    let n : Beat := BitVec.ofNat 32 (s.clock.rackTime.toNat / 256 / 2 ^ s.tb.beatExp)
    n ≠ s.tb.beat → Runs (exec .beatDue s) fun t =>
      (t.delays[p]).due =
        (if n.toNat % 2 ^ s.settings.echoExp = p.val % 2 ^ s.settings.echoExp ∧ (s.delays[p]).due = none ∧
          (s.delays[p]).outstanding = none then some .steady else (s.delays[p]).due)

/-- BEAT_DUE at the limits of a port: at its hold limit a held ACTIVE port keeps the hold, restarts the timer and sheds
its taps with blocks pending; at its join deadline a JOINING port fails the attempt, and the third failure in a row faults
it (R24, R25, R29, R127). -/
def Sys2Proof.Claims.BeatEndsLimits : Prop :=
  ∀ s : State, s.atRest = false →
    let n : Beat := BitVec.ofNat 32 (s.clock.rackTime.toNat / 256 / 2 ^ s.tb.beatExp)
    n ≠ s.tb.beat → Runs (exec .beatDue s) fun t => ∀ p : PortIx,
      (s.holdEnds p = true → (t.ports[p]).state = .active ∧ (t.ports[p]).held = true ∧ (t.ports[p]).holdBeats = 0 ∧
        (t.ports[p]).counters.shedEvents = satAdd (s.ports[p]).counters.shedEvents
          ((s.tapsOf p).countP (fun v => (s.taps[v]).any (fun x => !x.pending.isEmpty)))) ∧
      (s.joinEnds n p = true → (t.ports[p]).failures = (s.ports[p]).failures + 1 ∧ t.HoldsNothing p ∧
        (t.ports[p]).state = (if 3 ≤ (s.ports[p]).failures + 1 then .faulted else .listening))

/-- BEAT_DUE on each stream: OPENING flows at its start beat; an orphan is taken up where its frame's port enters ACTIVE,
even at its orphan deadline, and otherwise drains from that deadline on, or is FREE without blocks; at its drain deadline
a draining stream loses its taps and is FREE or waits for the blocks in flight. Nothing else of a stream changes, but that
a failed attempt takes its close order with it. Where the beat sheds blocks of the stream only the drain deadline is
spoken of (R87, R95, R96, R98, R99, R101 to R103). -/
def Sys2Proof.Claims.BeatMovesStreams : Prop :=
  ∀ s : State, s.atRest = false → s.settings.Law → s.BlockLaw →
    let n : Beat := BitVec.ofNat 32 (s.clock.rackTime.toNat / 256 / 2 ^ s.tb.beatExp)
    n ≠ s.tb.beat → Runs (exec .beatDue s) fun t => ∀ (st : StreamIx) (r : Stream), s.streams[st] = some r →
      let stands : Stream := { r with closeBy := r.closeBy.filter (fun o => match o with
        | .port p => !s.joinEnds n p
        | .service => true) }
      (r.state = .draining → r.drainDeadline = some n → r.fifo ≠ [] → (∀ v ∈ r.taps, t.taps[v] = none) ∧
        (t.streams[st] = none ∨ ∃ r', t.streams[st] = some r' ∧ r'.state = .draining ∧ r'.fifo ≠ [] ∧ r'.taps = [] ∧
          r'.drainDeadline = none ∧ r'.closeBy = none)) ∧
      (¬ s.beatSheds st →
        (r.state = .opening → t.streams[st] =
          some (if r.startBeat = n then { stands with state := .flowing } else stands)) ∧
        (r.state = .flowing ∨ (r.state = .draining ∧ r.drainDeadline ≠ some n) → t.streams[st] = some stands) ∧
        (∀ p, s.adopter n r = some p → t.streams[st] = some { stands with
          state := .flowing, producer := some p, orphanDeadline := none, baseline := none, resumeMark := true }) ∧
        (r.state = .orphaned → s.adopter n r = none →
          (r.orphanDeadline ≠ some n → t.streams[st] = some stands) ∧
          (r.orphanDeadline = some n → r.fifo ≠ [] → t.streams[st] = some { stands with
            state := .draining, producer := none, orphanDeadline := none
            drainDeadline := some (n + BitVec.ofNat 32 s.settings.drainLimit) }) ∧
          (r.orphanDeadline = some n → r.fifo = [] → t.streams[st] = none ∧ ∀ v ∈ r.taps, t.taps[v] = none)))

/-- BEAT_DUE on each tap that its stream keeps: what pends is shed into the owed gap at the hold limit of its port; a
staged set takes effect, its phase kept, taken from the expected sequence, or absent on a stream taken up at this beat
(that the ports come first is the model's choice, notes/assumptions/25.md, 30.md; R29, R127, R129). -/
def Sys2Proof.Claims.BeatAltersTaps : Prop :=
  ∀ s : State, s.atRest = false → s.settings.Law → s.BlockLaw →
    let n : Beat := BitVec.ofNat 32 (s.clock.rackTime.toNat / 256 / 2 ^ s.tb.beatExp)
    n ≠ s.tb.beat → Runs (exec .beatDue s) fun t =>
      ∀ (v : TapIx) (x : Tap) (r : Stream), s.taps[v] = some x → s.streams[x.stream] = some r →
        (r.state = .opening ∨ r.state = .flowing ∨ (s.adopter n r).isSome ∨
          (r.state = .orphaned ∧ (r.orphanDeadline ≠ some n ∨ (r.fifo ≠ [] ∧ ¬ s.beatSheds x.stream))) ∨
          (r.state = .draining ∧ r.drainDeadline ≠ some n ∧ ¬ s.beatSheds x.stream)) →
        let kept : Tap :=
          if s.holdEnds x.consumer then { x with pending := [], owed := satAdd x.owed x.pending.length } else x
        t.taps[v] = some (match x.staged with
          | none => kept
          | some m => { kept with
            settings := { m with lag := if m.lag = 0 then r.depth else m.lag }
            phase := if m.decimation = x.settings.decimation then x.phase
              else if (s.adopter n r).isSome then none
              else r.baseline.map (fun b => b.expected.toNat % m.decimation)
            staged := none })

/-- BEAT_DUE raises the holdover count in HOLDOVER and judges it: at the limit the timebase is FREE at the local trim
(R62, R77, R79). -/
def Sys2Proof.Claims.BeatCountsHoldover : Prop :=
  ∀ s : State, s.atRest = false →
    let n : Beat := BitVec.ofNat 32 (s.clock.rackTime.toNat / 256 / 2 ^ s.tb.beatExp)
    n ≠ s.tb.beat → Runs (exec .beatDue s) fun t =>
      let counted : Timebase := { s.tb with beat := n, holdoverBeats := s.tb.holdoverBeats + 1 }
      t.tb = if s.tb.state ≠ .holdover then { s.tb with beat := n }
        else if s.tb.holdoverBeats + 1 < s.settings.holdoverLimit then counted
        else { counted.frees s.settings.localTrim with holdoverExpiries := satAdd s.tb.holdoverExpiries 1 }

/-- BEAT_DUE tells S of the changes of port state and of the end of a holdover, and each port, where nothing is shed, of
the streams taken up and of the drains ended. Said of an origin with no close order pending, and of a port that is not
LEAVING. The order among ports and streams is the model's choice (notes/assumptions/23.md; R41, R77, R78, R98, R99, R101,
R103). -/
def Sys2Proof.Claims.BeatTells : Prop :=
  ∀ s : State, s.inService = true → s.settings.Law → s.BlockLaw → s.StreamLaw → s.ReferenceLaw →
    let n : Beat := BitVec.ofNat 32 (s.clock.rackTime.toNat / 256 / 2 ^ s.tb.beatExp)
    let closes (o : Origin) : Prop := ∃ st r, s.streams[(st : StreamIx)] = some r ∧ r.closeBy = some o
    n ≠ s.tb.beat → Runs (exec .beatDue s) fun t =>
      (¬ closes .service → t.origin .service = s.told .service (s.beatPortEvents n ++
        (if s.tb.state = .holdover ∧ s.settings.holdoverLimit ≤ s.tb.holdoverBeats + 1 then
          [(.timebaseEvent, timebaseFields 3 0 8 15 0 s.settings.localTrim s.now)] else []))) ∧
      ∀ c : PortIx, (s.ports[c]).state ≠ .leaving → s.joinEnds n c = false → ¬ closes (.port c) →
        (∀ st, ¬ s.beatSheds st) →
        t.origin (.port c) = s.told (.port c) (s.beatNotices n c)

/-- What a beat brings. That a command whose condition does not hold changes nothing is the model's choice
(notes/assumptions/7.md); that an older beat not yet launched stays due in place of the new one is its reading (DEDUCED,
notes/assumptions/17.md). -/
def Obligations.BeatDue : Prop :=
  Claims.BeatFallsDue ∧ Claims.SteadyEchoDue ∧ Claims.BeatEndsLimits ∧ Claims.BeatMovesStreams ∧
    Claims.BeatAltersTaps ∧ Claims.BeatCountsHoldover ∧ Claims.BeatTells

/-- At its admission epoch an ADMITTED port enters ACTIVE with that beat due, or an older one due already (DEDUCED,
notes/assumptions/17.md), and its orphaned streams flowing on it again: ADOPTED to the port for each, in increasing stream
number, and STREAM RESUMED to each consumer; its estimate stands, and its steady echo falls due in the event where the beat
is the port's in the echo interval; in any other state or at any other beat nothing happens (R12, R28, R41, R54, R55, R102,
R103, R158). That a command whose condition does not hold changes nothing is the model's choice (notes/assumptions/7.md).
-/
def Obligations.EnterActive : Prop :=
  ∀ (p : PortIx) (s : State), s.inService = true →
    ((s.ports[p]).state ≠ .admitted ∨ (s.ports[p]).epoch ≠ some s.tb.beat →
      exec (.enterActive p) s = .next (begin_ s)) ∧
    ((s.ports[p]).state = .admitted → (s.ports[p]).epoch = some s.tb.beat → Runs (exec (.enterActive p) s) fun t =>
      t.ports = s.ports.set p { s.ports[p] with
        state := .active, held := false, holdBeats := 0, missRun := 0, failures := 0, epoch := none } ∧
      (t.egress[p]).dueBeat = some ((s.egress[p]).dueBeat.getD s.tb.beat) ∧
      t.service.origin = s.service.origin.placeNotice .portEvent
        (portEventFields p .admitted .active .epoch (s.ports[p]).frame) ∧
      (s.BlockLaw →
        let orphans := allStreams.filter (fun st =>
          (s.streams[st]).any (fun r => r.state == .orphaned && s.frameId p == some r.frameId))
        let adopted : Notices := orphans.map (fun st =>
          (.adopted, be 1 st.val ++ [((s.streams[st]).map (·.tag)).getD 0]))
        ∀ c : PortIx, t.origins[c] = (s.origins[c]).map (.told ((if c = p then adopted else []) ++
          orphans.flatMap (fun st =>
            s.tapNotices .streamResumed st (((s.streams[st]).map (·.taps)).getD []) c)))) ∧
      t.taps = s.taps ∧ t.store = s.store ∧ t.tb = s.tb ∧
      (∀ q : PortIx, t.delays[q] =
        if q = p ∧ s.tb.beat.toNat % 2 ^ s.settings.echoExp = p.val % 2 ^ s.settings.echoExp ∧ (s.delays[p]).due = none ∧
          (s.delays[p]).outstanding = none then { s.delays[q] with due := some .steady } else s.delays[q]) ∧
      ∀ (st : StreamIx) (r : Stream), s.streams[st] = some r →
        t.streams[st] = some (if r.state = .orphaned ∧ s.frameId p = some r.frameId then
          { r with state := .flowing, producer := some p, orphanDeadline := none, baseline := none, resumeMark := true }
          else r))

/-- A JOINING port at its join deadline fails the attempt: it gives up queue and estimate and enters LISTENING, or FAULTED
at the third failure in a row; otherwise nothing happens (R24, R25, R39). -/
def Sys2Proof.Claims.JoinLimitExpiry : Prop :=
  ∀ (p : PortIx) (s : State), s.inService = true →
    ((s.ports[p]).state ≠ .joining ∨ (s.ports[p]).joinDeadline ≠ some s.tb.beat →
      exec (.joinLimitExpiry p) s = .next (begin_ s)) ∧
    ((s.ports[p]).state = .joining → (s.ports[p]).joinDeadline = some s.tb.beat →
      Runs (exec (.joinLimitExpiry p) s) fun t =>
        let faults : Bool := decide (3 ≤ (s.ports[p]).failures + 1)
        (t.ports[p]).state = (if faults then .faulted else .listening) ∧
        (t.ports[p]).failures = (s.ports[p]).failures + 1 ∧ t.HoldsNothing p ∧ SameElsewhere p s t ∧
        t.service.origin = s.service.origin.placeNotice .portEvent (portEventFields p .joining
          (if faults then .faulted else .listening) (if faults then .fault else .joinLimit) (s.ports[p]).frame))

/-- The hold limit of a held ACTIVE port: every tap of the port loses its pending blocks into its owed gap, and for each
that had some the shed-events counter rises and TAP SHED goes to the port, in increasing tap number (DESIGN CHOICE,
notes/assumptions/23.md); the timer restarts and the hold stays. Every tap keeps its record, the shed ones of the port and
those of other ports, on a DRAINING stream that keeps blocks too; the drain of one whose last blocks go ends in the event,
and its taps with it (R29, R98, R127). -/
def Sys2Proof.Claims.HoldLimitExpiry : Prop :=
  ∀ (p : PortIx) (s : State), s.atRest = false →
    ((s.ports[p]).state ≠ .active ∨ (s.ports[p]).held = false ∨ (s.ports[p]).holdBeats < s.settings.holdLimit →
      exec (.holdLimitExpiry p) s = .next (begin_ s)) ∧
    ((s.ports[p]).state = .active → (s.ports[p]).held = true → s.settings.holdLimit ≤ (s.ports[p]).holdBeats →
      Runs (exec (.holdLimitExpiry p) s) fun t =>
        (t.ports[p]).held = true ∧ (t.ports[p]).holdBeats = 0 ∧ (t.ports[p]).state = .active ∧
        (t.ports[p]).counters.shedEvents = satAdd (s.ports[p]).counters.shedEvents
          ((s.tapsOf p).countP (fun v => ((s.taps[v]).map (fun x => !x.pending.isEmpty)).getD false)) ∧
        (s.restarting = false → (∀ (v : TapIx) x r, s.taps[v] = some x → s.streams[x.stream] = some r → x.consumer = p →
            (r.state ≠ .draining ∨ s.BlockLaw ∧ s.keepsBlock p x.stream) ∧ r.producer ≠ some p) →
          t.origins[p] = (s.origins[p]).map (.told (allTaps.filterMap (fun v => match s.taps[v] with
            | some x => if x.consumer = p ∧ x.pending ≠ [] then
                some (.tapShed, x.tag :: (be 1 x.stream.val ++ be 1 2 ++ be 2 x.pending.length
                  ++ be 2 (satAdd x.owed x.pending.length).toNat))
              else none
            | none => none)))) ∧
        (s.BlockLaw → ∀ (v : TapIx) (x : Tap) (r : Stream), s.taps[v] = some x → s.streams[x.stream] = some r →
          (r.state ≠ .draining ∨ s.keepsBlock p x.stream →
            t.taps[v] = some (if x.consumer = p then
              { x with pending := [], owed := satAdd x.owed x.pending.length } else x)) ∧
          (r.state = .draining → r.fifo ≠ [] → ¬ s.keepsBlock p x.stream → t.taps[v] = none)))

/-- The join limit and the hold limit (R24, R25, R29, R39, R127). That a command whose condition does not hold changes
nothing is the model's choice (notes/assumptions/7.md). -/
def Obligations.LimitExpiries : Prop :=
  Claims.JoinLimitExpiry ∧ Claims.HoldLimitExpiry

/-! ### Streams -/

/-- The start beat moves a stream from OPENING to FLOWING and changes nothing else of it; in any other state, and at any other
beat, it has no effect (R87). -/
def Sys2Proof.Claims.StartBeat : Prop :=
  ∀ (st : StreamIx) (s : State), s.atRest = false →
    (∀ r, s.streams[st] = some r → r.state = .opening → r.startBeat = s.tb.beat →
      exec (.startBeat st) s =
        .next { begin_ s with streams := s.streams.set st (some { r with state := .flowing }) }) ∧
    ((∀ r, s.streams[st] = some r → r.state ≠ .opening ∨ r.startBeat ≠ s.tb.beat) →
      exec (.startBeat st) s = .next (begin_ s))

/-- At its orphan deadline an ORPHANED stream that holds blocks starts to drain, without a close order; without blocks it ends
its drain in the same event and is FREE, its taps gone and their consumers told STREAM ENDED (R98, R101). -/
def Sys2Proof.Claims.OrphanHoldExpiry : Prop :=
  ∀ (st : StreamIx) (s : State) (r : Stream), s.atRest = false → s.streams[st] = some r →
    (r.state ≠ .orphaned ∨ r.orphanDeadline ≠ some s.tb.beat →
      exec (.orphanHoldExpiry st) s = .next (begin_ s)) ∧
    (r.state = .orphaned → r.orphanDeadline = some s.tb.beat → r.fifo ≠ [] →
      exec (.orphanHoldExpiry st) s = .next { begin_ s with streams := s.streams.set st (some { r with
        state := .draining, producer := none, orphanDeadline := none
        drainDeadline := some (s.tb.beat + BitVec.ofNat 32 s.settings.drainLimit) }) }) ∧
    (r.state = .orphaned → r.orphanDeadline = some s.tb.beat → r.fifo = [] →
      Runs (exec (.orphanHoldExpiry st) s) fun t => t.streams[st] = none ∧ (∀ v ∈ r.taps, t.taps[v] = none) ∧
        (s.restarting = false → s.BlockLaw → DrainTold s t st r))

/-- A staged set takes effect at the beat: a lag limit of 0 is the depth limit, an unchanged decimation keeps its phase, a
changed one takes it from the expected sequence; without a staged set nothing happens (R129). -/
def Sys2Proof.Claims.StagedAlteration : Prop :=
  ∀ (v : TapIx) (s : State) (x : Tap) (r : Stream), s.atRest = false → s.taps[v] = some x → s.streams[x.stream] = some r →
    (x.staged = none → exec (.stagedAlteration v) s = .next (begin_ s)) ∧
    ∀ n, x.staged = some n → exec (.stagedAlteration v) s = .next { begin_ s with
      taps := s.taps.set v (some { x with
        settings := { n with lag := if n.lag = 0 then r.depth else n.lag }
        phase := if n.decimation = x.settings.decimation then x.phase
          else r.baseline.map (fun b => b.expected.toNat % n.decimation)
        staged := none }) }

/-- What a beat brings to streams and taps (R87, R98, R101, R129). The place of a DONE is the model's reading
(notes/assumptions/14.md). That a command whose condition does not hold changes nothing is the model's choice
(notes/assumptions/7.md). -/
def Obligations.StreamBeats : Prop :=
  Claims.StartBeat ∧ Claims.OrphanHoldExpiry ∧ Claims.StagedAlteration

/-- The end of a drain: the taps of the stream go, each consumer is told STREAM ENDED in tap-list order, and behind that
the close order pending is answered DONE (the place of the DONE is the model's reading, notes/assumptions/14.md). An
emptied stream is freed at once and leaves every drain set; at the deadline a stream with blocks in flight stays in
DRAINING without taps and deadline, and its last TAIL frees it (R33, R98, R99, R158). That a command whose condition does
not hold changes nothing is the model's choice (notes/assumptions/7.md). -/
def Obligations.DrainEnds : Prop :=
  ∀ (st : StreamIx) (s : State) (r : Stream), s.atRest = false → s.streams[st] = some r → r.state = .draining →
    (r.fifo = [] → Runs (exec (.drainEnd st) s) fun t =>
      t.streams[st] = none ∧ (∀ p : PortIx, st ∉ t.drainSets[p]) ∧
        (r.drainDeadline ≠ none → ∀ v ∈ r.taps, t.taps[v] = none) ∧
        (s.restarting = false → s.BlockLaw → r.drainDeadline ≠ none → DrainTold s t st r)) ∧
    (r.fifo ≠ [] → exec (.drainEnd st) s = .next (begin_ s)) ∧
    (r.fifo ≠ [] → r.drainDeadline = some s.tb.beat → Runs (exec (.drainDeadlineExpiry st) s) fun t =>
      (∀ v ∈ r.taps, t.taps[v] = none) ∧
      (s.restarting = false → s.BlockLaw → r.producer = none → DrainTold s t st r) ∧
      (s.BlockLaw → t.streams[st] = none ∨ ∃ r', t.streams[st] = some r' ∧ r'.state = .draining ∧ r'.fifo ≠ [] ∧
        r'.drainDeadline = none ∧ r'.closeBy = none)) ∧
    (r.drainDeadline ≠ some s.tb.beat → exec (.drainDeadlineExpiry st) s = .next (begin_ s)) ∧
    (∀ (p : PortIx) (k : Block) (v : TapIx) (bytes : List Byte) (start : Nat),
      (s.egress[p]).flight = some ⟨.samples st k.number v, bytes, start⟩ →
      start + bytes.length + 2 ≤ 2 * s.clock.cycle + 1 → r.fifo = [k] → k.refs ≤ 1 →
      Runs (exec (.samplesTail p) s) fun t =>
        t.streams[st] = none ∧ (s.BlockLaw → t.store.free = s.store.free ++ [k.number]) ∧
          (∀ q : PortIx, st ∉ t.drainSets[q]) ∧
          (s.restarting = false → s.BlockLaw → r.drainDeadline ≠ none → DrainTold s t st r)) ∧
    (∀ (o : Origin) (q : OriginState) (ident : Byte), s.restarting = false → r.closeBy = some o →
      s.origin o = some q → q.slot = some ⟨ident, 0x09, none⟩ → q.hasReply = false → r.taps = [] → r.fifo = [] →
      r.drainDeadline ≠ none →
      Runs (exec (.drainEnd st) s) fun t => ∃ q', t.origin o = some q' ∧
        q'.slot = some ⟨ident, 0x09, some (.done, [])⟩ ∧ q'.queue = q.queue ++ [.reply true ident 0x09 .done []])

/-- An inbound SAMPLES parcel on an ACTIVE port that no stream takes, or whose form or sequence is wrong, is counted where the
rule says and changes nothing else (R90, R91); on a port that is not ACTIVE it is stray (R10). -/
def Obligations.SamplesDiscarded : Prop :=
  ∀ (p : PortIx) (tag : Byte) (sequence count : BitVec 16) (stamp : Stamp) (payload : List Byte) (s : State),
    s.atRest = false → (s.ports[p]).state.framerRuns = true → payload.length ≤ 256 →
    let out := exec (.samplesInbound p tag sequence count stamp payload) s
    let u := parcelTaken p 0 s
    let counted (f : PortCounters → PortCounters) : State := modPort p (fun x => { x with counters := f x.counters }) u
    let noted (st : StreamIx) (r : Stream) (f : StreamCounters → StreamCounters) : State :=
      { u with streams := u.streams.set st (some { r with counters := f r.counters }) }
    ((s.ports[p]).state ≠ .active → out = .next (counted fun c => { c with stray := satAdd c.stray 1 })) ∧
    ((s.ports[p]).state = .active → s.producerMap p tag = none →
      ((∀ id st r, s.frameId p = some id → s.identity id tag = some st → s.streams[st] = some r → r.state ≠ .draining) →
        out = .next (counted fun c => { c with stray := satAdd c.stray 1 })) ∧
      (∀ id st r, s.frameId p = some id → s.identity id tag = some st → s.streams[st] = some r → r.state = .draining →
        out = .next (noted st r fun c => { c with late := satAdd c.late 1 }))) ∧
    ((s.ports[p]).state = .active → ∀ st r, s.producerMap p tag = some st → s.streams[st] = some r →
      (r.state = .opening → out = .next (noted st r fun c => { c with early := satAdd c.early 1 })) ∧
      (r.state = .flowing →
        (count = 0 ∨ r.spp < count.toNat ∨ payload.length ≠ r.width * count.toNat →
          out = .next (counted fun c => { c with malformed := satAdd c.malformed 1 })) ∧
        (¬ (count = 0 ∨ r.spp < count.toNat ∨ payload.length ≠ r.width * count.toNat) → ∀ b, r.baseline = some b →
          32768 ≤ (sequence - b.expected).toNat →
            out = .next (noted st r fun c => { c with stale := satAdd c.stale 1 }))))

/-- A SAMPLES parcel that passes the ingest checks moves the baselines on to it, counts as accepted and, against the predicted
stamp, as slip; with no tap on the stream nothing is stored (R91, R92, R93, R109). -/
def Sys2Proof.Claims.SamplesWithoutTaps : Prop :=
  ∀ (p : PortIx) (tag : Byte) (sequence count : BitVec 16) (stamp : Stamp) (payload : List Byte) (s : State)
    (st : StreamIx) (r : Stream),
    s.atRest = false → (s.ports[p]).state = .active → payload.length ≤ 256 → s.producerMap p tag = some st →
    s.streams[st] = some r → r.state = .flowing → 1 ≤ count.toNat → count.toNat ≤ r.spp →
    payload.length = r.width * count.toNat → r.taps = [] →
    (∀ b, r.baseline = some b → (sequence - b.expected).toNat < 32768) →
    let u := parcelTaken p 0 s
    exec (.samplesInbound p tag sequence count stamp payload) s =
      .next { u with streams := u.streams.set st (some (ingested sequence count stamp r)) }

/-- A SAMPLES parcel that one open tap selects is stored in the block at the head of the free list and pends on the tap,
while the stream stands below its depth limit and its floor or the floor sum allow; at three quarters of the depth limit
the producer is told to ease. Otherwise it is dropped and counted, and charged to the tap (R109, R110, R111, R116, R123,
R126). -/
def Sys2Proof.Claims.SamplesStored : Prop :=
  ∀ (p : PortIx) (tag : Byte) (sequence count : BitVec 16) (stamp : Stamp) (payload : List Byte) (s : State)
    (st : StreamIx) (r : Stream) (b : Baseline) (v : TapIx) (x : Tap) (phase : Nat),
    s.inService = true → (s.ports[p]).state = .active → payload.length ≤ 256 → s.producerMap p tag = some st →
    s.streams[st] = some r → r.state = .flowing → 1 ≤ count.toNat → count.toNat ≤ r.spp →
    payload.length = r.width * count.toNat → r.taps = [v] → r.baseline = some b → sequence = b.expected →
    s.taps[v] = some x → x.settings.windowOpen = none → x.settings.windowClose = none → x.phase = some phase →
    phase < x.settings.decimation → sequence.toNat % x.settings.decimation = phase →
    x.pending.length < x.settings.lag →
    let out := exec (.samplesInbound p tag sequence count stamp payload) s
    let slips : Bool := decide (r.period / 2 <
      (stamp - (b.stamp + BitVec.ofNat 64 (b.count.toNat * r.period))).toInt.natAbs)
    let r' : Stream := { r with
      baseline := some ⟨sequence + 1, stamp, count⟩
      counters := { r.counters with
        accepted := satAdd r.counters.accepted 1, slip := satAdd r.counters.slip (if slips then 1 else 0) } }
    let u := parcelTaken p 0 s
    let dropped (store : Store) : State := { u with
      store := store, taps := u.taps.set v (some { x with owed := satAdd x.owed 1 })
      streams := u.streams.set st (some { r' with
        counters := { r'.counters with dropped := satAdd r.counters.dropped 1 } }) }
    (∀ k rest, s.store.free = k :: rest → r.fifo.length < r.depth → (r.fifo.length < 4 ∨ s.floorSum < 1024) →
      let n := r.fifo.length + 1
      let stored (eased : Bool) : State := { u with
        store := { u.store with free := rest, lowWater := min u.store.lowWater rest.length }
        taps := u.taps.set v (some { x with pending := x.pending ++ [k] })
        streams := u.streams.set st (some { r' with
          fifo := r.fifo ++ [⟨k, sequence, count, stamp, payload, slips, r.resumeMark, 1⟩]
          resumeMark := false, eased := eased }) }
      let fields := be 1 st.val ++ r.tag :: (be 2 n ++ be 2 r.depth)
      (r.eased = false → n < 3 * r.depth / 4 → out = .next (stored false)) ∧
      (r.eased = false → 3 * r.depth / 4 ≤ n → out = .next (noticed (.port p) .ease fields (stored true))) ∧
      (r.eased = true → r.depth / 2 ≤ n → out = .next (stored true)) ∧
      (r.eased = true → n < r.depth / 2 → out = .next (noticed (.port p) .resume fields (stored false)))) ∧
    (r.depth ≤ r.fifo.length →
      out = .next (dropped { s.store with depthDrops := satAdd s.store.depthDrops 1 })) ∧
    (r.fifo.length < r.depth → 4 ≤ r.fifo.length → 1024 ≤ s.floorSum →
      out = .next (dropped { s.store with floorDrops := satAdd s.store.floorDrops 1 }))

/-- The charge for a gap of `g` missing numbers from `x` on is the number of them that a decimation `n` with a phase selects
(R124). -/
def Sys2Proof.Claims.GapChargeCounts : Prop :=
  ∀ (x : BitVec 16) (g n phase : Nat), n ∈ [1, 2, 4, 8, 16] → phase < n →
    gapCharge x g n phase = (List.range g).countP (fun k => decide ((x.toNat + k) % n = phase))

/-- A tap that does not select the parcel is charged, while its window is open, for the missing numbers of the gap that its
decimation selects; a tap without a phase takes it from the parcel. Nothing is stored (R123, R124). -/
def Sys2Proof.Claims.GapIsCharged : Prop :=
  ∀ (p : PortIx) (tag : Byte) (sequence count : BitVec 16) (stamp : Stamp) (payload : List Byte) (s : State)
    (st : StreamIx) (r : Stream) (v : TapIx) (x : Tap),
    s.ingests p tag sequence count payload st r → r.taps = [v] → s.taps[v] = some x →
    x.settings.decimation ∈ [1, 2, 4, 8, 16] → (∀ c, x.settings.windowClose = some c → stamp.toNat < c.toNat) →
    let n := x.settings.decimation
    let waits : Prop := ∃ a, x.settings.windowOpen = some a ∧ stamp.toNat < a.toNat
    let u := parcelTaken p 0 s
    let left (y : Tap) : Prop := exec (.samplesInbound p tag sequence count stamp payload) s =
      .next { u with taps := u.taps.set v (some y), streams := u.streams.set st (some (ingested sequence count stamp r)) }
    (x.phase = none → waits → left { x with phase := some (sequence.toNat % n) }) ∧
    ∀ phase, x.phase = some phase → phase < n →
      (waits → left x) ∧
      (¬ waits → sequence.toNat % n ≠ phase → ∀ b, r.baseline = some b →
        left { x with owed := satAdd x.owed ((List.range (sequence - b.expected).toNat).countP (fun i =>
          decide ((b.expected.toNat + i) % n = phase))) })

/-- A stamp at or beyond its window's close removes the tap: its pending references are released, and its consumer is told TAP
ENDED with cause WINDOW and the owed gap; with no other tap nothing is stored (R122). -/
def Sys2Proof.Claims.WindowCloses : Prop :=
  ∀ (p : PortIx) (tag : Byte) (sequence count : BitVec 16) (stamp : Stamp) (payload : List Byte) (s : State)
    (st : StreamIx) (r : Stream) (v : TapIx) (x : Tap) (c : Stamp),
    s.ingests p tag sequence count payload st r → s.PoolLaw → s.BlockLaw → r.taps = [v] → s.taps[v] = some x →
    x.settings.windowClose = some c → c.toNat ≤ stamp.toNat →
    Runs (exec (.samplesInbound p tag sequence count stamp payload) s) fun t =>
      t.taps = s.taps.set v none ∧ t.store.free = s.store.free ++ freed x.pending r.fifo ∧
      (∃ eased, t.streams[st] = some { ingested sequence count stamp r with
        fifo := released x.pending r.fifo, taps := [], eased := eased }) ∧
      (x.consumer ≠ p → t.origin (.port x.consumer) = s.told (.port x.consumer)
        [(.tapEnded, x.tag :: (be 1 st.val ++ be 1 1 ++ be 2 x.owed.toNat))])

/-- A selected parcel that finds the tap at its lag limit sheds the tap first: its pending references are released and
owed as a gap, shed events rise, TAP SHED goes to the consumer with cause LAG; the storage decision is made on what that
leaves, and the new block is then all that pends (R109, R115, R125, R126). -/
def Sys2Proof.Claims.LagSheds : Prop :=
  ∀ (p : PortIx) (tag : Byte) (sequence count : BitVec 16) (stamp : Stamp) (payload : List Byte) (s : State)
    (st : StreamIx) (r : Stream) (v : TapIx) (x : Tap) (b : Baseline) (phase : Nat),
    s.ingests p tag sequence count payload st r → s.PoolLaw → s.BlockLaw → r.taps = [v] → s.taps[v] = some x →
    x.settings.windowOpen = none → x.settings.windowClose = none → r.baseline = some b → sequence = b.expected →
    x.phase = some phase → phase < x.settings.decimation → sequence.toNat % x.settings.decimation = phase →
    x.settings.lag ≤ x.pending.length →
    let n := x.pending.length
    let owed := satAdd x.owed n
    let fifo := released x.pending r.fifo
    let rest : State := { s with streams := s.streams.set st (some { r with fifo := fifo }) }
    ∀ k free, s.store.free ++ freed x.pending r.fifo = k :: free → fifo.length < r.depth →
      (fifo.length < 4 ∨ rest.floorSum < 1024) →
      Runs (exec (.samplesInbound p tag sequence count stamp payload) s) fun t =>
        t.taps = s.taps.set v (some { x with pending := [k], owed := owed }) ∧ t.store.free = free ∧
        (∃ eased, t.streams[st] = some { ingested sequence count stamp r with
          fifo := fifo ++ [⟨k, sequence, count, stamp, payload, slipped sequence stamp r, r.resumeMark, 1⟩]
          resumeMark := false, eased := eased }) ∧
        (t.ports[x.consumer]).counters.shedEvents = satAdd (s.ports[x.consumer]).counters.shedEvents 1 ∧
        (x.consumer ≠ p → t.origin (.port x.consumer) = s.told (.port x.consumer)
          [(.tapShed, x.tag :: (be 1 st.val ++ be 1 1 ++ be 2 n ++ be 2 owed.toNat))])

/-- A stream with any number of taps, none closing or at its lag limit: each meets the parcel on its own and is charged
for the gap, or takes its phase. The parcel is stored once, with the number of the taps that select it as its reference
count, and pends on each; or is dropped and counted once, and charged to each; or is selected by none (R109 to R111, R116,
R123, R124, R126). -/
def Sys2Proof.Claims.SeveralTaps : Prop :=
  ∀ (p : PortIx) (tag : Byte) (sequence count : BitVec 16) (stamp : Stamp) (payload : List Byte) (s : State)
    (st : StreamIx) (r : Stream), s.ingests p tag sequence count payload st r → s.BlockLaw →
    let isOpen (x : Tap) : Bool := x.settings.windowOpen.all (fun a => decide (a.toNat ≤ stamp.toNat))
    let missing : List Nat := match r.baseline with
      | some b => (List.range (sequence - b.expected).toNat).map (b.expected.toNat + ·)
      | none => []
    let met (x : Tap) : Tap := match x.phase with
      | none => { x with phase := some (sequence.toNat % x.settings.decimation) }
      | some phase =>
        if isOpen x then { x with
          owed := satAdd x.owed (missing.countP (fun i => decide (i % x.settings.decimation = phase))) }
        else x
    let selects (x : Tap) : Bool := isOpen x && match x.phase with
      | none => true
      | some phase => decide (sequence.toNat % x.settings.decimation = phase)
    (∀ (v : TapIx) x, s.taps[v] = some x → x.stream = st → x.settings.decimation ∈ [1, 2, 4, 8, 16] ∧
      (∀ phase, x.phase = some phase → phase < x.settings.decimation) ∧
      (∀ c, x.settings.windowClose = some c → stamp.toNat < c.toNat) ∧
      (selects x = true → x.pending.length < x.settings.lag)) →
    let selecting := r.taps.countP (fun v => (s.taps[v]).any selects)
    let r' := ingested sequence count stamp r
    let u := parcelTaken p 0 s
    let left (f : Tap → Tap) : State := { u with
      taps := Vector.ofFn (fun v => (s.taps[v]).map (fun x =>
        if x.stream = st then (if selects x then f (met x) else met x) else x))
      streams := u.streams.set st (some r') }
    let dropped (store : Store) : State := { left (fun x => { x with owed := satAdd x.owed 1 }) with
      store := store
      streams := u.streams.set st (some { r' with
        counters := { r'.counters with dropped := satAdd r.counters.dropped 1 } }) }
    let out := exec (.samplesInbound p tag sequence count stamp payload) s
    (selecting = 0 → out = .next (left id)) ∧
    (1 ≤ selecting →
      (∀ k rest, s.store.free = k :: rest → r.fifo.length < r.depth → (r.fifo.length < 4 ∨ s.floorSum < 1024) →
        let n := r.fifo.length + 1
        let stored (eased : Bool) : State := { left (fun x => { x with pending := x.pending ++ [k] }) with
          store := { s.store with free := rest, lowWater := min s.store.lowWater rest.length }
          streams := u.streams.set st (some { r' with
            fifo := r.fifo ++ [⟨k, sequence, count, stamp, payload, slipped sequence stamp r, r.resumeMark, selecting⟩]
            resumeMark := false, eased := eased }) }
        let fields := be 1 st.val ++ r.tag :: (be 2 n ++ be 2 r.depth)
        (r.eased = false → n < 3 * r.depth / 4 → out = .next (stored false)) ∧
        (r.eased = false → 3 * r.depth / 4 ≤ n → out = .next (noticed (.port p) .ease fields (stored true))) ∧
        (r.eased = true → r.depth / 2 ≤ n → out = .next (stored true)) ∧
        (r.eased = true → n < r.depth / 2 → out = .next (noticed (.port p) .resume fields (stored false)))) ∧
      (r.depth ≤ r.fifo.length →
        out = .next (dropped { s.store with depthDrops := satAdd s.store.depthDrops 1 })) ∧
      (r.fifo.length < r.depth → 4 ≤ r.fifo.length → 1024 ≤ s.floorSum →
        out = .next (dropped { s.store with floorDrops := satAdd s.store.floorDrops 1 })))

/-- An inbound SAMPLES parcel that passes the ingest checks. The order in which several freed blocks join the free list is
the model's choice (notes/assumptions/23.md). -/
def Obligations.SamplesTaken : Prop :=
  Claims.SamplesWithoutTaps ∧ Claims.SamplesStored ∧ Claims.GapChargeCounts ∧ Claims.GapIsCharged ∧
    Claims.WindowCloses ∧ Claims.LagSheds ∧ Claims.SeveralTaps

/-! ### The reference -/

/-- The best candidate is the first eligible one by class, then rank, then REFIN before any port, then port number, and REFIN
has rank 0; there is none only where no candidate is eligible (R67). -/
def Obligations.BestCandidate : Prop :=
  ∀ s : State,
    let place : Source → Nat := fun c => match c with
      | .refin => 0
      | .port p => p.val + 1
    (s.best = none ↔ ∀ c, s.eligible c = none) ∧
    (∀ x, s.eligible .refin = some x → x.rank = 0) ∧
    ∀ c x, s.best = some (c, x) → s.eligible c = some x ∧
      ∀ c' x', s.eligible c' = some x' →
        x'.cls < x.cls ∨ (x'.cls = x.cls ∧ (x.rank < x'.rank ∨ (x.rank = x'.rank ∧ place c ≤ place c')))

/-- A rising edge of REFIN restarts its absence time. An edge that finds REFIN absent makes it active and clears its
FAILED mark, and selection re-runs: in FREE an enabled REFIN that is the best candidate is acquired, with TIMEBASE EVENT to
S; of the selected REFIN every edge before the 80th counts; the 80th is the comparison (R63, R66, R68 to R70, R78). -/
def Sys2Proof.Claims.RefinEdge : Prop :=
  ∀ (f : Fraction) (s : State), s.atRest = false →
    let u := modTb (fun t => { t with refinLastEdge := s.clock.cycle }) (opened f s)
    let reference : Bool := s.isReference .refin
    (s.tb.refinActive = true → reference = false → exec (.refinEdge f) s = .next u) ∧
    (s.tb.refinActive = true → reference = true → s.tb.edges + 1 < 80 →
      exec (.refinEdge f) s = .next (modTb (fun t => { t with edges := t.edges + 1 }) u)) ∧
    (s.tb.refinActive = true → reference = true → 80 ≤ s.tb.edges + 1 →
      exec (.refinEdge f) s = exec (.comparison f) (modTb (fun t => { t with refinLastEdge := s.clock.cycle }) s)) ∧
    (s.tb.refinActive = false →
      Reselects (modTb (fun t => { t with refinActive := true, refinFailed := false }) u) 6 (exec (.refinEdge f) s)) ∧
    (s.tb.refinActive = false → s.settings.refinEnable = false → (s.tb.state = .free ∨ s.tb.state = .holdover) →
      s.best = none →
      exec (.refinEdge f) s = .next (modTb (fun t => { t with refinActive := true, refinFailed := false }) u)) ∧
    (s.tb.refinActive = false → s.settings.refinEnable = true → s.tb.state = .free → s.best = none →
      s.tb.selected = none → Runs (exec (.refinEdge f) s) fun t =>
        t.tb = { s.tb with
          refinActive := true, refinFailed := false, refinLastEdge := s.clock.cycle, state := .acquiring
          selected := some .refin, trim := s.tb.savedTrim, pull := 0, comparisons := 0, inWindow := 0, expected := none
          edges := 0, edgeSince := s.clock.cycle } ∧
        t.origin .service = s.told .service
          [(.timebaseEvent, timebaseFields 0 1 1 14 s.settings.refinClass s.tb.savedTrim u.now)] ∧
        t.ports = s.ports ∧ t.streams = s.streams ∧ t.origins = s.origins)

/-- 1024 ticks without a rising edge make REFIN absent, and selection re-runs where it was enabled. A selected REFIN is then
lost: LOCKED falls to HOLDOVER and ACQUIRING to FREE where no other candidate is eligible, and S is told with cause LOST;
before that time nothing happens (R63, R68, R70, R75, R76, R78). -/
def Sys2Proof.Claims.RefinAbsence : Prop :=
  ∀ s : State, s.atRest = false →
    let t1 : Timebase := { s.tb with refinActive := false }
    (s.tb.refinActive = false ∨ s.clock.cycle - s.tb.refinLastEdge < 1024 →
      exec .refinAbsence s = .next (begin_ s)) ∧
    (s.tb.refinActive = true → 1024 ≤ s.clock.cycle - s.tb.refinLastEdge →
      (s.settings.refinEnable = false → exec .refinAbsence s = .next { begin_ s with tb := t1 }) ∧
      (s.settings.refinEnable = true → Reselects { begin_ s with tb := t1 } 6 (exec .refinAbsence s)) ∧
      ((∀ p : PortIx, s.eligible (.port p) = none) → s.tb.selected = some .refin → s.settings.refinEnable = true →
        (s.tb.state = .locked → Runs (exec .refinAbsence s) fun t =>
          t.tb = { t1 with
            state := .holdover, selected := none, trim := s.tb.savedTrim, pull := 0, excursions := 0
            holdoverBeats := 0, unlocks := satAdd s.tb.unlocks 1 } ∧ t.ports = s.ports ∧ t.origins = s.origins ∧
          t.origin .service = s.told .service [(.timebaseEvent, timebaseFields 2 3 6 15 0 s.tb.savedTrim s.now)]) ∧
        (s.tb.state = .acquiring → Runs (exec .refinAbsence s) fun t =>
          t.tb = { t1 with
            state := .free, selected := none, trim := s.settings.localTrim, savedTrim := s.settings.localTrim
            pull := 0 } ∧ t.ports = s.ports ∧ t.origins = s.origins ∧
          t.origin .service = s.told .service
            [(.timebaseEvent, timebaseFields 1 0 6 15 0 s.settings.localTrim s.now)])))

/-- The presence and the absence of REFIN (R63, R66, R68 to R70, R75, R76, R78). That a command whose condition does not hold
changes nothing is the model's choice (notes/assumptions/7.md). That the 80th edge is the comparison in one event is its
reading (notes/assumptions/13.md). -/
def Obligations.RefinEdges : Prop :=
  Claims.RefinEdge ∧ Claims.RefinAbsence

/-- A comparison sets the expected time, the first to the sampled time and every later one 256,000 sub-ticks on; the phase
error is their signed difference, clamped; trim and pull follow it, both divisions truncating toward zero. ACQUIRING
counts the comparison and its run inside 64 sub-ticks, and the sixteenth locks; LOCKED inside 256 sub-ticks saves the
trim, and outside it counts an excursion, of which the fourth in a row ends the lock and starts an acquisition on the best
candidate; the 1024th comparison without a lock fails the acquisition, and selection re-runs with cause ACQ FAIL. S is told of every change of state, and the ports
of a change of reference. In FREE and HOLDOVER there is no comparison (R70, R71, R72, R74, R75, R78). -/
def Sys2Proof.Claims.Comparison : Prop :=
  ∀ (f : Fraction) (s : State), s.inService = true →
    let u := opened f s
    let expected : Stamp := match s.tb.expected with
      | none => u.now
      | some x => x + 256000
    let e : Int := max (-32767) (min (expected - u.now).toInt 32767)
    let k : Int := max (-2047) (min (s.tb.trim + max (-16) (min (e.tdiv 4) 16)) 2047)
    let t1 : Timebase := { s.tb with
      trim := k, pull := max (-1024) (min (e.tdiv 2) 1024), expected := some expected, edges := 0
      edgeSince := s.clock.cycle }
    let run := if |e| ≤ 64 then s.tb.inWindow + 1 else 0
    (s.tb.expected = none → e = 0) ∧
    (s.tb.state = .free ∨ s.tb.state = .holdover → exec (.comparison f) s = .next u) ∧
    (s.tb.state = .acquiring → run < 16 → s.tb.comparisons + 1 < 1024 → exec (.comparison f) s =
      .next { u with tb := { t1 with comparisons := s.tb.comparisons + 1, inWindow := run } }) ∧
    (s.tb.state = .acquiring → 16 ≤ run → exec (.comparison f) s =
      .next (noticed .service .timebaseEvent
        (be 1 1 ++ be 1 2 ++ be 1 3 ++ be 1 (sourceCode s.tb.selected) ++ be 1 (s.classOf s.tb.selected)
          ++ beInt 2 k ++ be 8 u.now.toNat)
        { u with tb := { t1 with
          comparisons := s.tb.comparisons + 1, inWindow := run, state := .locked, savedTrim := k
          locks := satAdd s.tb.locks 1, excursions := 0 } })) ∧
    (s.tb.state = .locked → |e| ≤ 256 →
      exec (.comparison f) s = .next { u with tb := { t1 with excursions := 0, savedTrim := k } }) ∧
    (s.tb.state = .locked → 256 < |e| → s.tb.excursions + 1 < 4 →
      exec (.comparison f) s = .next { u with tb := { t1 with excursions := s.tb.excursions + 1 } }) ∧
    (s.tb.state = .locked → 256 < |e| → 4 ≤ s.tb.excursions + 1 → ∀ c x, s.best = some (c, x) →
      Runs (exec (.comparison f) s) fun t => t.ports = s.ports ∧ t.tb = { t1 with
        state := .acquiring, selected := some c, trim := s.tb.savedTrim, pull := 0, expected := none, comparisons := 0
        inWindow := 0, excursions := 0, holdoverBeats := 0, unlocks := satAdd s.tb.unlocks 1 } ∧
        t.origin .service = s.told .service [(.timebaseEvent, timebaseFields 2 3 4 15 0 s.tb.savedTrim u.now),
          (.timebaseEvent, timebaseFields 3 1 1 (sourceCode (some c)) x.cls s.tb.savedTrim u.now)] ∧ RolesTold s t) ∧
    (s.tb.state = .acquiring → run < 16 → 1024 ≤ s.tb.comparisons + 1 →
      Reselects { u with tb := (({ t1 with comparisons := s.tb.comparisons + 1, inWindow := run } : Timebase)).failing } 7
        (exec (.comparison f) s)) ∧
    (s.tb.state = .acquiring → run < 16 → 1024 ≤ s.tb.comparisons + 1 → ∀ c, s.tb.selected = some c →
      (∀ c', c' ≠ c → s.eligible c' = none) → Runs (exec (.comparison f) s) fun t =>
        t.isFailed c = true ∧ t.tb.state = .free ∧ t.tb.selected = none ∧ t.tb.trim = s.settings.localTrim ∧
        t.tb.savedTrim = s.settings.localTrim ∧ t.tb.pull = 0 ∧
        t.tb.acquisitionFailures = satAdd s.tb.acquisitionFailures 1 ∧ t.ports = s.ports ∧
        t.origin .service = s.told .service
          [(.timebaseEvent, timebaseFields 1 0 7 15 0 s.settings.localTrim u.now)] ∧ RolesTold s t)

/-- Every 2000th received slot of the selected port is the comparison; the others count towards it (R64). -/
def Sys2Proof.Claims.SlotsAreCompared : Prop :=
  ∀ (p : PortIx) (f : Fraction) (s : State), s.atRest = false → (s.ports[p]).state.framerRuns = true →
    (s.ports[p]).framer.mode = .outside → s.isReference (.port p) = true →
    let received := modPort p (fun x => { x with silenceSince := s.clock.cycle, lastReceived := (opened f s).now }) s
    (2000 ≤ s.tb.edges + 1 → exec (.receivedSymbol p .fill f) s = exec (.comparison f) received) ∧
    (s.tb.edges + 1 < 2000 → exec (.receivedSymbol p .fill f) s =
      .next (modTb (fun t => { t with edges := t.edges + 1 }) (opened f received)))

/-- The 2000th received slot of the selected port is the comparison whatever its symbol, which the framer takes, or the hold,
as at any other slot. A symbol that brings no notice does its own work beside the comparison; of any symbol, the loss of the
port and the TAIL of a parcel included, the timebase goes on from what the comparison has left (R1, R4, R7, R11, R64). -/
def Sys2Proof.Claims.EverySymbolIsCompared : Prop :=
  ∀ (p : PortIx) (symbol : Symbol) (f : Fraction) (s : State), s.atRest = false → (s.ports[p]).state.framerRuns = true →
    s.isReference (.port p) = true → 2000 ≤ s.tb.edges + 1 →
    let x := s.ports[p]
    let received (g : Port → Port) : State := modPort p (fun x => g { x with
      silenceSince := s.clock.cycle, lastReceived := (opened f s).now }) s
    (∀ fr, framerNext x.framer symbol = some fr →
      exec (.receivedSymbol p symbol f) s = exec (.comparison f) (received (fun x => { x with framer := fr }))) ∧
    (∀ fr check, framerFails x.framer symbol = some (fr, check) → x.score + 8 < 256 →
      exec (.receivedSymbol p symbol f) s = exec (.comparison f) (received (fun x => { x with
        framer := fr, score := x.score + 8
        counters := if check then { x.counters with checkFailures := satAdd x.counters.checkFailures 1 } else x.counters }))) ∧
    (symbol = .hold → exec (.receivedSymbol p symbol f) s = exec (.comparison f)
      (if x.state = .active ∧ x.held = false then received (fun x => { x with
        held := true, holdBeats := 0, counters := { x.counters with holds := satAdd x.counters.holds 1 } })
      else received id)) ∧
    (symbol = .go → exec (.receivedSymbol p symbol f) s = exec (.comparison f)
      (if x.state = .active ∧ x.held = true then received (fun x => { x with held := false, holdBeats := 0 })
      else received id)) ∧
    (∀ u v, exec (.comparison f) (received id) = .next u → exec (.receivedSymbol p symbol f) u = .next v →
      Runs (exec (.receivedSymbol p symbol f) s) fun t => t.tb = { v.tb with edges := 0 })

/-- The comparison loop and the slots it counts (R64, R70 to R72, R74, R75, R78). That a command whose condition does not hold
changes nothing is the model's choice (notes/assumptions/7.md). That a slot is counted before the framer takes its
symbol is its reading (notes/assumptions/13.md). -/
def Obligations.Comparisons : Prop :=
  Claims.Comparison ∧ Claims.SlotsAreCompared ∧ Claims.EverySymbolIsCompared

/-- 3000 ticks without a comparison edge fail an acquisition, with the candidate marked FAILED, and selection re-runs: with no
other candidate the timebase is FREE. They end LOCKED through HOLDOVER in an acquisition on the best candidate, the lost one included. S is told
of each change of state, and the ports of a change of reference. Before that time, and in FREE and HOLDOVER, nothing happens
(R66, R70, R73, R74, R75, R78). -/
def Sys2Proof.Claims.EdgeAbsence : Prop :=
  ∀ s : State, s.atRest = false →
    (s.clock.cycle - s.tb.edgeSince < 3000 ∨ s.tb.state = .free ∨ s.tb.state = .holdover →
      exec .edgeAbsence s = .next (begin_ s)) ∧
    (3000 ≤ s.clock.cycle - s.tb.edgeSince → s.tb.state = .acquiring →
      Reselects { begin_ s with tb := s.tb.failing } 7 (exec .edgeAbsence s)) ∧
    (3000 ≤ s.clock.cycle - s.tb.edgeSince → s.tb.state = .acquiring → ∀ c, s.tb.selected = some c →
      (∀ c', c' ≠ c → s.eligible c' = none) → Runs (exec .edgeAbsence s) fun t =>
        t.isFailed c = true ∧ (∀ c', c' ≠ c → t.isFailed c' = s.isFailed c') ∧ t.tb.state = .free ∧
        t.tb.selected = none ∧ t.tb.trim = s.settings.localTrim ∧ t.tb.savedTrim = s.settings.localTrim ∧
        t.tb.pull = 0 ∧ t.tb.acquisitionFailures = satAdd s.tb.acquisitionFailures 1 ∧
        t.tb.candidates = s.tb.candidates ∧ t.ports = s.ports ∧
        t.origin .service = s.told .service
          [(.timebaseEvent, timebaseFields 1 0 7 15 0 s.settings.localTrim s.now)] ∧ RolesTold s t) ∧
    (3000 ≤ s.clock.cycle - s.tb.edgeSince → s.tb.state = .locked → ∀ c x, s.best = some (c, x) →
      Runs (exec .edgeAbsence s) fun t => t.ports = s.ports ∧ t.tb = { s.tb with
        state := .acquiring, selected := some c, trim := s.tb.savedTrim, pull := 0, expected := none, comparisons := 0
        inWindow := 0, edges := 0, edgeSince := s.clock.cycle, excursions := 0, holdoverBeats := 0
        unlocks := satAdd s.tb.unlocks 1 } ∧
        t.origin .service = s.told .service [(.timebaseEvent, timebaseFields 2 3 5 15 0 s.tb.savedTrim s.now),
          (.timebaseEvent, timebaseFields 3 1 1 (sourceCode (some c)) x.cls s.tb.savedTrim s.now)] ∧ RolesTold s t)

/-- The holdover count at its limit ends HOLDOVER in FREE at the local trim; below the limit, and in the other states, nothing
happens (R62, R77). -/
def Sys2Proof.Claims.HoldoverExpiry : Prop :=
  ∀ s : State, s.inService = true →
    (s.tb.state ≠ .holdover ∨ s.tb.holdoverBeats < s.settings.holdoverLimit →
      exec .holdoverExpiry s = .next (begin_ s)) ∧
    (s.tb.state = .holdover → s.settings.holdoverLimit ≤ s.tb.holdoverBeats → s.tb.selected = none →
      exec .holdoverExpiry s = .next (noticed .service .timebaseEvent
        (be 1 3 ++ be 1 0 ++ be 1 8 ++ be 1 15 ++ be 1 0 ++ beInt 2 s.settings.localTrim ++ be 8 s.now.toNat)
        { begin_ s with tb := { s.tb with
          state := .free, trim := s.settings.localTrim, savedTrim := s.settings.localTrim, pull := 0
          holdoverExpiries := satAdd s.tb.holdoverExpiries 1 } }))

/-- The ends of a lock and of a holdover without an edge (R62, R66, R70, R73 to R75, R77, R78). That a command whose condition
does not hold changes nothing is the model's choice (notes/assumptions/7.md). -/
def Obligations.ReferenceLost : Prop :=
  Claims.EdgeAbsence ∧ Claims.HoldoverExpiry

/-! ### Triggers and pins -/

/-- An inbound TRIGGER is stray on a port that is not ACTIVE, malformed for a line above 31; a stamp more than 2 ticks
ahead of its arrival is replaced by the arrival. It is merged where it lies below the line's last accepted stamp plus the
holdoff; a line without an accepted stamp merges nothing (R10, R142, R143, R144). -/
def Sys2Proof.Claims.TriggerMerges : Prop :=
  ∀ (p : PortIx) (line : Byte) (stamp : Stamp) (f : Fraction) (s : State), s.atRest = false →
    (s.ports[p]).state.framerRuns = true →
    let u := parcelTaken p f s
    let counted (f : PortCounters → PortCounters) : State := modPort p (fun x => { x with counters := f x.counters }) u
    let t0 : Stamp := if u.now.toNat + 512 < stamp.toNat then u.now else stamp
    ((s.ports[p]).state ≠ .active →
      exec (.triggerInbound p line stamp f) s = .next (counted fun c => { c with stray := satAdd c.stray 1 })) ∧
    ((s.ports[p]).state = .active → 32 ≤ line.toNat →
      exec (.triggerInbound p line stamp f) s = .next (counted fun c => { c with malformed := satAdd c.malformed 1 })) ∧
    ((s.ports[p]).state = .active → ∀ (l : LineIx) (last : Stamp), l.val = line.toNat → (s.lines[l]).last = some last →
      t0.toNat < last.toNat + (s.lines[l]).holdoff * 256 →
      exec (.triggerInbound p line stamp f) s = .next (modLine l (fun x => { x with
        merged := satAdd x.merged 1, pendingMerged := satInc8 x.pendingMerged }) u))

/-- An accepted TRIGGER is distributed: the line's last accepted stamp and counters; one copy, with one fire time, into
the queue of each subscriber port; the fire time entered at each subscriber pin; and nothing else (R143, R145, R146,
R150). -/
def Sys2Proof.Claims.TriggerAccepted : Prop :=
  ∀ (p : PortIx) (line : Byte) (stamp : Stamp) (f : Fraction) (s : State) (l : LineIx), s.atRest = false →
    (s.ports[p]).state = .active → l.val = line.toNat →
    let u := parcelTaken p f s
    let late : Bool := decide (u.now.toNat + 512 < stamp.toNat)
    let t0 : Stamp := if late then u.now else stamp
    (∀ last, (s.lines[l]).last = some last → last.toNat + (s.lines[l]).holdoff * 256 ≤ t0.toNat) →
    Runs (exec (.triggerInbound p line stamp f) s) (FannedOut l t0 (BitVec.ofNat 8 p.val) late u)

/-- An inbound TRIGGER: stray, malformed, merged or accepted (R10, R142 to R146, R150). Times are compared without
wrapping (notes/assumptions/15.md); a fire moment beyond 2^64 is taken modulo 2^64, the model's choice
(notes/assumptions/33.md). -/
def Obligations.TriggerInbound : Prop :=
  Claims.TriggerMerges ∧ Claims.TriggerAccepted

/-- An acceptance meets an OUT pin of the line: inside the pulse in progress it is merged; with no pulse and its fire
moment past it fires in the present tick and is late; otherwise it is placed in the fire list, whose latest entry is lost
beyond four (R150; the tick in which a late pulse starts is notes/assumptions/11.md). -/
def Sys2Proof.Claims.PinAcceptance : Prop :=
  ∀ (l : LineIx) (fire : Stamp) (i : PinIx) (s : State), fire.toNat + 255 < 2 ^ 64 →
    let x := s.pins[i]
    let moment := (fire.toNat + 255) / 256 * 256
    let t := enterFire l fire i s
    let idle : Prop := ∀ q, x.pulse = some q → q.stop.toNat ≤ s.now.toNat
    let placed : Prop := (idle ∧ s.now.toNat < moment) ∨
      ∃ q, x.pulse = some q ∧ s.now.toNat < q.stop.toNat ∧ q.stop.toNat ≤ moment
    (∀ q, x.pulse = some q → s.now.toNat < q.stop.toNat → moment < q.stop.toNat →
      t.pins[i] = { x with counters := { x.counters with
        mergedFires := satAdd x.counters.mergedFires 1
        lateFires := if moment ≤ s.now.toNat then satAdd x.counters.lateFires 1 else x.counters.lateFires } } ∧
      (t.lines[l]).late = if moment ≤ s.now.toNat then satAdd (s.lines[l]).late 1 else (s.lines[l]).late) ∧
    (idle → moment ≤ s.now.toNat → ∃ start : Stamp, start.toNat ≤ s.now.toNat ∧ s.now.toNat < start.toNat + 256 ∧
      start.toNat % 256 = 0 ∧
      t = (s |> modLine l (fun y => { y with late := satAdd y.late 1 })
        |> modPin i (fun x => { x with
            pulse := some ⟨start, start + BitVec.ofNat 64 (x.width * 256)⟩
            counters := { x.counters with
              fires := satAdd x.counters.fires 1, lateFires := satAdd x.counters.lateFires 1 } }))) ∧
    (placed → x.fires.length < 4 → ∃ fires, List.Perm fires (fire :: x.fires) ∧
      t = modPin i (fun x => { x with fires := fires }) s) ∧
    (placed → x.fires.length = 4 → x.Law → ∃ (fires : List Stamp) (lost : Stamp),
      List.Perm (lost :: fires) (fire :: x.fires) ∧ (∀ g ∈ fires, g.toNat ≤ lost.toNat) ∧
      t = modPin i (fun x => { x with
        fires := fires, counters := { x.counters with overruns := satAdd x.counters.overruns 1 } }) s)

/-- A sampled level that differs from an IN pin's reference level is an edge; one of the pin's polarity counts and posts a
trigger on the pin's line, which merges or is accepted and distributed with origin 16 + pin and the pin stamp, the
sampling cycle in whole ticks less 2 ticks (R144 to R146, R149, R150). Times are compared without wrapping
(notes/assumptions/15.md); a fire moment beyond 2^64 is taken modulo 2^64, the model's choice (notes/assumptions/33.md).
-/
def Obligations.PinEdge : Prop :=
  ∀ (i : PinIx) (level : Bool) (s : State), s.atRest = false →
    let x := s.pins[i]
    let t0 : Stamp := BitVec.ofNat 64 (s.clock.rackTime.toNat / 256 * 256 - 512)
    let takes : Bool := x.polarity == 2 || x.polarity == (if level then 0 else 1)
    (x.mode ≠ .input ∨ x.reference = level →
      exec (.pinEdge i level) s = .next (modPin i (fun x => { x with wire := level }) (begin_ s))) ∧
    (x.mode = .input → x.reference ≠ level → takes = false →
      exec (.pinEdge i level) s = .next (modPin i (fun x => { x with wire := level, reference := level }) (begin_ s))) ∧
    (x.mode = .input → x.reference ≠ level → takes = true →
      let edged := modPin i (fun x => { x with
        wire := level, reference := level, counters := { x.counters with edges := satAdd x.counters.edges 1 } })
        (begin_ s)
      (∀ last, (s.lines[x.line]).last = some last → t0.toNat < last.toNat + (s.lines[x.line]).holdoff * 256 →
        exec (.pinEdge i level) s = .next (modLine x.line (fun y => { y with
          merged := satAdd y.merged 1, pendingMerged := satInc8 y.pendingMerged }) edged)) ∧
      ((∀ last, (s.lines[x.line]).last = some last → last.toNat + (s.lines[x.line]).holdoff * 256 ≤ t0.toNat) →
        Runs (exec (.pinEdge i level) s) (FannedOut x.line t0 (BitVec.ofNat 8 (16 + i.val)) false edged)))

/-- At the fire moment of its head entry an OUT pin without a pulse, or with one that ends by then, starts one of its
pulse width and goes active; a head entry inside a pulse is merged; before that moment nothing happens (R151). -/
def Sys2Proof.Claims.PinFire : Prop :=
  ∀ (i : PinIx) (s : State) (g : Stamp) (rest : List Stamp), s.atRest = false → (s.pins[i]).mode = .output →
    (s.pins[i]).fires = g :: rest →
    let moment := fireMoment g
    (s.now.toNat < moment.toNat → exec (.pinFire i) s = .next (begin_ s)) ∧
    (moment.toNat ≤ s.now.toNat → (∀ h ∈ rest, s.now.toNat < (fireMoment h).toNat) →
      ((∀ q, (s.pins[i]).pulse = some q → q.stop.toNat ≤ moment.toNat) →
        exec (.pinFire i) s = .next (modPin i (fun x => { x with
        fires := rest, pulse := some ⟨moment, moment + BitVec.ofNat 64 (x.width * 256)⟩
        counters := { x.counters with fires := satAdd x.counters.fires 1 } }) (begin_ s))) ∧
      (∀ q, (s.pins[i]).pulse = some q → moment.toNat < q.stop.toNat →
        exec (.pinFire i) s = .next (modPin i (fun x => { x with
          fires := rest, counters := { x.counters with mergedFires := satAdd x.counters.mergedFires 1 } }) (begin_ s))))

/-- At the end of its pulse an OUT pin returns to the inactive level; head entries of its fire list whose fire moment lies
inside that pulse leave it merged; before it nothing happens (R151). -/
def Sys2Proof.Claims.PulseEnd : Prop :=
  ∀ (i : PinIx) (s : State), s.atRest = false →
    (∀ q, (s.pins[i]).pulse = some q → q.stop.toNat ≤ s.now.toNat →
      let inside (g : Stamp) : Bool := decide ((fireMoment g).toNat < q.stop.toNat)
      exec (.pulseEnd i) s = .next (modPin i (fun x => { x with
        pulse := none, fires := x.fires.dropWhile inside
        counters := { x.counters with
          mergedFires := satAdd x.counters.mergedFires (x.fires.takeWhile inside).length } }) (begin_ s)) ∧
      ((s.pins[i]).mode = .output →
        (modPin i (fun x => { x with pulse := none }) s).pinDrive i = some ((s.pins[i]).polarity == 1))) ∧
    (∀ q, (s.pins[i]).pulse = some q → s.now.toNat < q.stop.toNat →
      exec (.pulseEnd i) s = .next (begin_ s) ∧
      ((s.pins[i]).mode = .output → s.pinDrive i = some ((s.pins[i]).polarity != 1)))

/-- Where one cycle reaches the end of a pulse and fire moments, the outcome is the same whichever of the two is taken first,
because the comparison is made on the times (R151). -/
def Sys2Proof.Claims.PulseEndAndFire : Prop :=
  ∀ (i : PinIx) (s : State) (q : Pulse), s.atRest = false → (s.pins[i]).mode = .output → (s.pins[i]).pulse = some q →
    q.stop.toNat ≤ s.now.toNat →
    (∀ g ∈ (s.pins[i]).fires, q.stop.toNat ≤ (fireMoment g).toNat → (fireMoment g).toNat ≤ s.now.toNat →
      s.now.toNat < (fireMoment g + BitVec.ofNat 64 ((s.pins[i]).width * 256)).toNat) →
    Runs (exec (.pulseEnd i) s) fun ended => Runs (exec (.pinFire i) s) fun fired =>
      exec (.pinFire i) ended = exec (.pulseEnd i) fired

/-- The fire list and the pulse of an OUT pin (R150, R151). That a command whose condition does not hold changes nothing
is the model's choice (notes/assumptions/7.md). So is the tick in which a late pulse starts (notes/assumptions/11.md), and
that a fire moment inside a cycle is reached at the next one (notes/assumptions/32.md); times are compared without
wrapping (notes/assumptions/15.md), and a fire moment or a pulse end beyond 2^64 is taken modulo 2^64, its choice
(notes/assumptions/33.md). -/
def Obligations.PinFires : Prop :=
  Claims.PinAcceptance ∧ Claims.PinFire ∧ Claims.PulseEnd ∧ Claims.PulseEndAndFire

/-! ### Orders -/

/-- The tests that every order meets before its owning rule. While its origin's slot is not empty an order is answered
BUSY, or discarded and counted where the queue holds a REPLY; JOINING takes JOIN alone and ADMITTED and LEAVING take none
(NOT_ACTIVE); SET LINE, SET PIN and RESTART HUB belong to S, and SET PARAM, SETUP WRITE and SETUP CLEAR too while the
frame-write permission is clear (NOT_PERMITTED). A wrong number of argument bytes is BAD_ARG, and so is every order from S
that needs a port (R154, R155, R157, R160, Table 29). -/
def Sys2Proof.Claims.SharedTests : Prop :=
  ∀ (c : OrderCode) (o : Origin) (ident : Byte) (args : List Byte) (f : Fraction) (s : State), args.length ≤ 32 →
    let out := exec (c.command o ident args f) s
    let u := orderTaken o f s
    let arrives : Prop := match o with
      | .port p => (s.ports[p]).state.framerRuns = true ∧ (s.ports[p]).state ≠ .training
      | .service => True
    let held : Prop := match o with
      | .port p => (s.ports[p]).state ≠ .active ∧ ¬ ((s.ports[p]).state = .joining ∧ c = .join)
      | .service => False
    let reserved : Prop := o ≠ .service ∧ (c = .setLine ∨ c = .setPin ∨ c = .restartHub ∨
      ((c = .setParam ∨ c = .setupWrite ∨ c = .setupClear) ∧ s.settings.frameWrite = false))
    (s.atRest = false → arrives → ∀ q, s.origin o = some q → q.slot.isSome = true →
      (q.hasReply = false → out = .next (modOrigin o (fun q => { q with
        queue := q.queue ++ [.reply false ident c.byte .busy []] }) u)) ∧
      (q.hasReply = true → out = .next (match o with
        | .port p => modPort p (fun x => { x with counters := { x.counters with stray := satAdd x.counters.stray 1 } }) u
        | .service => modService (fun v => { v with discards := satInc8 v.discards }) u))) ∧
    (s.slotFree o = true → arrives → held → out = .next (replied o ident c .notActive [] u)) ∧
    (s.ready o = true → reserved → out = .next (replied o ident c .notPermitted [] u)) ∧
    (s.ready o = true → ¬ reserved → args.length ≠ c.argLength o → out = .next (replied o ident c .badArg [] u)) ∧
    (s.ready o = true → o = .service →
      (c = .join ∨ c = .proposeReference ∨ c = .withdrawReference ∨ c = .openStream ∨ c = .subscribeLine ∨
        c = .unsubscribeLine) → out = .next (replied o ident c .badArg [] u))

/-- A reply that waits in the order slot joins the queue where that holds no REPLY; otherwise nothing happens (R156). -/
def Sys2Proof.Claims.ReplyPlacement : Prop :=
  ∀ (o : Origin) (s : State) (q : OriginState), s.inService = true → s.origin o = some q →
    (∀ i c r b, q.slot = some ⟨i, c, some (r, b)⟩ → q.hasReply = false → exec (.replyPlacement o) s =
      .next (modOrigin o (fun q => { q with queue := q.queue ++ [.reply true i c r b] }) (begin_ s))) ∧
    (q.hasReply = true ∨ q.slot = none ∨ (∃ i c, q.slot = some ⟨i, c, none⟩) →
      exec (.replyPlacement o) s = .next (begin_ s))

/-- What every order meets outside its owning rule: the shared tests, and the placing of its reply (R154 to R157, R160).
That a command whose condition does not hold changes nothing is the model's choice (notes/assumptions/7.md). -/
def Obligations.OrderTests : Prop :=
  Claims.SharedTests ∧ Claims.ReplyPlacement

/-- JOIN in JOINING: a frame ID that no port holds is admitted, with an epoch 4 to 19 beats ahead that is a multiple of
16, and S is told; a held one, and any JOIN in ACTIVE, is refused CONFLICT; a wrong number of argument bytes, or an intent
of 2 or more, is BAD_ARG (R26, R27, R41). -/
def Obligations.JoinAdmits : Prop :=
  (∀ beat : Beat, (admissionEpoch beat).toNat % 16 = 0 ∧ 4 ≤ (admissionEpoch beat - beat).toNat ∧
    (admissionEpoch beat - beat).toNat ≤ 19) ∧
  (∀ (p : PortIx) (ident : Byte) (args : List Byte) (f : Fraction) (s : State), s.slotFree (.port p) = true →
    (s.ports[p]).state = .joining ∨ (s.ports[p]).state = .active → args.length ≤ 32 →
    args.length ≠ 6 ∨ 1 < field args 5 1 →
      exec (.join (.port p) ident args f) s = .next (replied (.port p) ident .join .badArg [] (parcelTaken p f s))) ∧
  ∀ (p : PortIx) (ident : Byte) (args : List Byte) (f : Fraction) (s : State), s.slotFree (.port p) = true →
    args.length = 6 → field args 5 1 ≤ 1 →
    let frame : Frame := ⟨BitVec.ofNat 32 (field args 0 4), BitVec.ofNat 8 (field args 4 1), field args 5 1 == 1⟩
    let u := parcelTaken p f s
    let epoch := admissionEpoch s.tb.beat
    ((s.ports[p]).state = .joining → (∀ q, s.frameId q ≠ some frame.id) →
      exec (.join (.port p) ident args f) s = .next (u
        |> modPort p (fun x => { x with
            state := .admitted, frame := some frame, epoch := some epoch, joinDeadline := none })
        |> noticed .service .portEvent (portEventFields p .joining .admitted .joined (some frame))
        |> replied (.port p) ident .join .done (be 4 epoch.toNat ++ be 2 (s.estimateOf p).toNat
            ++ be 4 s.settings.rackIdentity.toNat ++ be 1 p.val))) ∧
    (((s.ports[p]).state = .joining ∧ ∃ q, s.frameId q = some frame.id) ∨ (s.ports[p]).state = .active →
      exec (.join (.port p) ident args f) s = .next (replied (.port p) ident .join .conflict [] u))

/-- DETACH, from the port's frame or from S: DONE, then the port is LEAVING with frame ID, estimate and queue kept; its
streams drain, its taps, candidacy and subscriptions go, its drain set is the draining streams of its frame, and a RUNNING
order of its own is ABORTED; selection re-runs without it, and S is told PORT EVENT and the TIMEBASE EVENTs. From S a port
that is not ACTIVE is refused NOT_ACTIVE, a port above 11 BAD_ARG (R31, R32, R41, R59, R65, R68, R76, R78). -/
def Sys2Proof.Claims.Detach : Prop :=
  (∀ (ident : Byte) (args : List Byte) (f : Fraction) (s : State), s.ready .service = true → args.length = 1 →
    11 < field args 0 1 →
      exec (.detach .service ident args f) s = .next (replied .service ident .detach .badArg [] (opened f s))) ∧
  ∀ (o : Origin) (p : PortIx) (ident : Byte) (args : List Byte) (f : Fraction) (s : State), s.ready o = true →
    (o = .port p ∧ args = [] ∨ o = .service ∧ args.length = 1 ∧ field args 0 1 = p.val) →
    ((s.ports[p]).state = .active → Runs (exec (.detach o ident args f) s) fun t =>
      (t.ports[p]).state = .leaving ∧ t.frameId p = s.frameId p ∧ (t.ports[p]).held = false ∧
      (t.ports[p]).missRun = 0 ∧ (t.delays[p]).estimate = (s.delays[p]).estimate ∧ (t.delays[p]).due = none ∧
      (t.delays[p]).outstanding = none ∧ t.triggers[p] = ⟨[], false⟩ ∧ t.StandsNowhere p ∧
      (∀ st, st ∈ t.drainSets[p] ↔ ∃ r, t.streams[st] = some r ∧ r.state = .draining ∧ s.frameId p = some r.frameId) ∧
      (∀ st r, s.streams[(st : StreamIx)] = some r → s.produces p st = true → Drains s t st r) ∧
      (∃ q, t.origin o = some q ∧ q.slot = some ⟨ident, 0x02, some (.done, [])⟩ ∧
        .reply true ident 0x02 .done [] ∈ q.queue) ∧
      (∀ q, s.origins[p] = some q → ∃ q', t.origins[p] = some q' ∧ q.queue <+: q'.queue) ∧
      (o = .service → ∀ q i c, s.origins[p] = some q → q.slot = some ⟨i, c, none⟩ →
        ∃ q', t.origins[p] = some q' ∧ q'.slot = some ⟨i, c, some (.aborted, [])⟩) ∧
      LeavesService p .detach (replied o ident .detach .done [] (orderTaken o f s)) t) ∧
    ((s.ports[p]).state ≠ .active → exec (.detach o ident args f) s =
      .next (replied o ident .detach .notActive [] (orderTaken o f s)))

/-- RESET LINK: a port above 11 is BAD_ARG; a VACANT port is left as it is; a frame may not reset another port in
ADMITTED, ACTIVE or LEAVING; otherwise the port loses what it holds, its streams draining, and stands in LISTENING where
it is present and enabled, else in VACANT, with its counts 0 and its counters kept; selection re-runs without it, and S is
told PORT EVENT and the TIMEBASE EVENTs (R36, R37, R41, R65, R68, R76, R78). -/
def Sys2Proof.Claims.ResetLink : Prop :=
  (∀ (o : Origin) (ident : Byte) (args : List Byte) (f : Fraction) (s : State), s.ready o = true → args.length = 1 →
    11 < field args 0 1 →
      exec (.resetLink o ident args f) s = .next (replied o ident .resetLink .badArg [] (orderTaken o f s))) ∧
  ∀ (o : Origin) (p : PortIx) (ident : Byte) (args : List Byte) (f : Fraction) (s : State), s.ready o = true →
    args.length = 1 → field args 0 1 = p.val →
    let u := orderTaken o f s
    let out := exec (.resetLink o ident args f) s
    let may : Prop := o = .service ∨ o = .port p ∨ (s.ports[p]).state.isRegistered = false
    ((s.ports[p]).state = .vacant → out = .next (replied o ident .resetLink .done [] u)) ∧
    (¬ may → out = .next (replied o ident .resetLink .notPermitted [] u)) ∧
    (may → (s.ports[p]).state ≠ .vacant → Runs out fun t =>
      (t.ports[p]).state = (if (s.ports[p]).presence && s.settings.enable[p] then .listening else .vacant) ∧
      (t.ports[p]).failures = 0 ∧ (t.ports[p]).fillRun = 0 ∧ t.HoldsNothing p ∧ SameElsewhere p u t ∧
      LeavesService p .reset (replied o ident .resetLink .done [] u) t ∧
      ((s.ports[p]).state = .active → t.StandsNowhere p ∧
        ∀ st r, s.streams[(st : StreamIx)] = some r → s.produces p st = true → Drains s t st r) ∧
      (o ≠ .port p → ∃ q, t.origin o = some q ∧ q.slot = some ⟨ident, 0x03, some (.done, [])⟩ ∧
        .reply true ident 0x03 .done [] ∈ q.queue))

/-- The two orders that take a port out of service (R31, R32, R36, R37, R41, R59, R65, R68, R76, R78). A RUNNING order at
the planned teardown is ABORTED, where one table has it removed (notes/assumptions/6.md). -/
def Obligations.DetachAndReset : Prop :=
  Claims.Detach ∧ Claims.ResetLink

/-- PROPOSE REFERENCE and WITHDRAW REFERENCE re-run selection behind their reply, whatever candidate it takes: a proposal
that displaces the reference in LOCKED by its higher class, one that is the better candidate in ACQUIRING, a new candidate
in HOLDOVER; the withdrawal of the reference with another candidate eligible, through HOLDOVER in LOCKED. S is told of each
change, the ports of their roles (R64, R65, R66, R68, R69, R70, R75, R76, R78). -/
def Sys2Proof.Claims.ReferenceOrdersSelect : Prop :=
  ∀ (p : PortIx) (ident : Byte) (args : List Byte) (f : Fraction) (s : State), s.ready (.port p) = true →
    let u := parcelTaken p f s
    (args.length = 2 → field args 0 1 ≤ 3 → field args 1 1 ≤ 15 →
      let x : Candidacy := ⟨field args 0 1, field args 1 1⟩
      Reselects (replied (.port p) ident .proposeReference .done [] { u with tb := { s.tb with
        candidates := s.tb.candidates.set p (some x), failed := s.tb.failed.set p false } }) 6
        (exec (.proposeReference (.port p) ident args f) s)) ∧
    (args = [] → s.tb.candidates[p] ≠ none →
      Reselects (replied (.port p) ident .withdrawReference .done [] { u with tb := { s.tb with
        candidates := s.tb.candidates.set p none } }) 6 (exec (.withdrawReference (.port p) ident args f) s))

/-- PROPOSE REFERENCE records class and rank and clears the FAILED mark; in FREE with no other candidate the port is
acquired and told GAINED, and S is told; in LOCKED no candidate of a class at or below the reference's displaces it.
WITHDRAW REFERENCE removes a candidacy, and with it the port from the selection; without another candidate LOCKED falls to
HOLDOVER and ACQUIRING to FREE, the port is told LOST, and S with cause LOST; without a candidacy nothing changes (R64,
R65, R66, R68, R69, R70, R75, R78). -/
def Sys2Proof.Claims.ReferenceOrdersAlone : Prop :=
  ∀ (p : PortIx) (ident : Byte) (args : List Byte) (f : Fraction) (s : State), s.ready (.port p) = true →
    let u := parcelTaken p f s
    let mark (x : Option Candidacy) : Timebase := { s.tb with
      candidates := s.tb.candidates.set p x, failed := s.tb.failed.set p (if x.isSome then false else s.tb.failed[p]) }
    (args.length = 2 → 3 < field args 0 1 ∨ 15 < field args 1 1 →
      exec (.proposeReference (.port p) ident args f) s = .next (replied (.port p) ident .proposeReference .badArg [] u)) ∧
    (args.length = 2 → field args 0 1 ≤ 3 → field args 1 1 ≤ 15 →
      let x : Candidacy := ⟨field args 0 1, field args 1 1⟩
      Runs (exec (.proposeReference (.port p) ident args f) s) (fun t =>
        t.tb.candidates = s.tb.candidates.set p (some x) ∧ t.tb.failed[p] = false ∧ t.ports = u.ports ∧
        t.streams = s.streams) ∧
      (s.tb.state = .free → s.tb.selected = none → s.best = none →
        Runs (exec (.proposeReference (.port p) ident args f) s) fun t =>
          t.tb = { mark (some x) with
            state := .acquiring, selected := some (.port p), trim := s.tb.savedTrim, pull := 0, comparisons := 0
            inWindow := 0, expected := none, edges := 0, edgeSince := s.clock.cycle } ∧
          t.origin .service = s.told .service
            [(.timebaseEvent, timebaseFields 0 1 1 p.val x.cls s.tb.savedTrim u.now)] ∧
          RolesTold (replied (.port p) ident .proposeReference .done [] u) t) ∧
      (s.tb.state = .locked → s.selectedEligible = true → s.tb.selected ≠ some (.port p) →
        x.cls ≤ s.classOf s.tb.selected → (∀ c' x', s.eligible c' = some x' → x'.cls ≤ s.classOf s.tb.selected) →
        exec (.proposeReference (.port p) ident args f) s =
          .next (replied (.port p) ident .proposeReference .done [] { u with tb := mark (some x) }))) ∧
    (args = [] → s.tb.candidates[p] = none → exec (.withdrawReference (.port p) ident args f) s =
      .next (replied (.port p) ident .withdrawReference .done [] u)) ∧
    (args = [] → s.tb.candidates[p] ≠ none → s.ReferenceLaw →
      Runs (exec (.withdrawReference (.port p) ident args f) s) fun t =>
        t.tb.candidates = s.tb.candidates.set p none ∧ t.tb.failed = s.tb.failed ∧
        t.tb.selected ≠ some (.port p) ∧ t.ports = u.ports ∧ t.streams = s.streams) ∧
    (args = [] → s.tb.candidates[p] ≠ none → s.tb.selected = some (.port p) →
      (∀ c, c ≠ .port p → s.eligible c = none) →
      let falls (t1 : Timebase) (notice : List Byte) : Prop :=
        Runs (exec (.withdrawReference (.port p) ident args f) s) fun t =>
          t.tb = { t1 with candidates := s.tb.candidates.set p none, selected := none, pull := 0 } ∧
          t.origin .service = s.told .service [(.timebaseEvent, notice)] ∧
          RolesTold (replied (.port p) ident .withdrawReference .done [] u) t
      (s.tb.state = .locked → falls { s.tb with
          state := .holdover, trim := s.tb.savedTrim, excursions := 0, holdoverBeats := 0
          unlocks := satAdd s.tb.unlocks 1 }
        (timebaseFields 2 3 6 15 0 s.tb.savedTrim u.now)) ∧
      (s.tb.state = .acquiring → falls { s.tb with
          state := .free, trim := s.settings.localTrim, savedTrim := s.settings.localTrim }
        (timebaseFields 1 0 6 15 0 s.settings.localTrim u.now)))

/-- The orders of a reference candidate, and the selection that they re-run (R64 to R66, R68 to R70, R75, R76, R78). The cause
of an acquisition whose own reference has lowered its class is the model's choice (notes/assumptions/26.md). -/
def Obligations.ReferenceOrders : Prop :=
  Claims.ReferenceOrdersAlone ∧ Claims.ReferenceOrdersSelect

/-- READ LINK, READ TIMEBASE, READ STREAM and READ STORE are replied DONE with the bytes of the record as it stands, and
change nothing but the low-water mark of READ STORE; a port above 11, a stream above 63 and an undefined part are BAD_ARG,
a FREE record NOT_FOUND (R43, R81, R89, R117, R175, Table 32). -/
def Sys2Proof.Claims.TableReads : Prop :=
  ∀ (o : Origin) (ident : Byte) (args : List Byte) (f : Fraction) (s : State), s.ready o = true →
    let u := orderTaken o f s
    (args.length = 1 → ∀ p : PortIx, field args 0 1 = p.val →
      let x := u.ports[p]
      let e := (s.delays[p]).estimate
      let flags := bit x.presence 0 + bit s.settings.enable[p] 1 + bit x.held 2 + bit x.frame.isSome 3
        + bit ((x.frame.map (·.intent)).getD false) 4 + bit x.epoch.isSome 5 + bit e.isSome 6
        + bit (e.map (·.mode) == some .steady) 7
      exec (.readLink o ident args f) s = .next (replied o ident .readLink .done
        (be 1 x.state.code ++ be 1 flags ++ be 2 x.score ++ be 1 x.failures
          ++ be 4 ((x.frame.map (·.id.toNat)).getD 0) ++ be 1 ((x.frame.map (·.cls.toNat)).getD 0)
          ++ be 4 ((x.epoch.map (·.toNat)).getD 0) ++ be 2 ((e.map (·.value.toNat)).getD 0)
          ++ [x.counters.listenRestarts, x.counters.trainingFailures, x.counters.checkFailures, x.counters.stray,
              x.counters.malformed, x.counters.echoRejects, x.counters.missedEchoes, x.counters.holds,
              x.counters.shedEvents, x.counters.triggerOverruns].flatMap (fun n => be 2 n.toNat)) u)) ∧
    (args.length = 1 → 11 < field args 0 1 → exec (.readLink o ident args f) s =
      .next (replied o ident .readLink .badArg [] u)) ∧
    (args = [] →
      let x := s.tb
      let reference : Candidacy := match x.selected with
        | some (.port p) => (x.candidates[p]).getD ⟨0, 0⟩
        | some .refin => if s.settings.refinEnable && x.refinActive then ⟨s.settings.refinClass, 0⟩ else ⟨0, 0⟩
        | none => ⟨0, 0⟩
      let detail : List Byte := match x.state with
        | .free => be 4 0
        | .acquiring => be 2 x.comparisons ++ be 1 x.inWindow ++ be 1 0
        | .locked => be 1 x.excursions ++ be 3 0
        | .holdover => be 2 x.holdoverBeats ++ be 2 s.settings.holdoverLimit
      exec (.readTimebase o ident args f) s = .next (replied o ident .readTimebase .done
        (be 8 u.now.toNat ++ be 4 x.beat.toNat ++ be 1 (64 * x.state.code + x.beatExp) ++ be 1 (sourceCode x.selected)
          ++ be 1 (16 * reference.cls + reference.rank) ++ beInt 2 x.trim ++ beInt 2 x.pull ++ beInt 2 x.savedTrim
          ++ be 1 (bit s.settings.refinEnable 0 + bit x.refinActive 1 + bit x.refinFailed 2 + 16 * s.settings.refinClass)
          ++ allPorts.flatMap (fun p => be 1 (match x.candidates[p] with
            | some c => 128 + 16 * c.cls + c.rank
            | none => 0))
          ++ be 2 ((allPorts.map (fun p => bit x.failed[p] p.val)).sum) ++ detail
          ++ [x.locks, x.unlocks, x.acquisitionFailures, x.holdoverExpiries].flatMap (fun n => be 2 n.toNat)) u)) ∧
    (args = [] → exec (.readStore o ident args f) s = .next (modStore (fun v => { v with lowWater := v.free.length })
      (replied o ident .readStore .done
        (be 2 s.store.free.length ++ be 2 s.floorSum ++ be 1 (s.streams.toList.countP (·.isSome))
          ++ be 2 s.store.lowWater ++ be 2 s.store.depthDrops.toNat ++ be 2 s.store.floorDrops.toNat) u))) ∧
    (args.length = 2 → 63 < field args 0 1 → exec (.readStream o ident args f) s =
      .next (replied o ident .readStream .badArg [] u)) ∧
    (args.length = 2 → ∀ st : StreamIx, field args 0 1 = st.val →
      (s.streams[st] = none → exec (.readStream o ident args f) s =
        .next (replied o ident .readStream .notFound [] u)) ∧
      ∀ r, s.streams[st] = some r →
        (field args 1 1 = 0 →
          let b : Baseline := r.baseline.getD ⟨0, 0, 0⟩
          let deadline : Option Beat := match r.state with
            | .draining => r.drainDeadline
            | .orphaned => r.orphanDeadline
            | _ => none
          exec (.readStream o ident args f) s = .next (replied o ident .readStream .done
            (be 1 r.state.code ++ be 1 ((r.producer.map (·.val)).getD 15) ++ be 4 r.frameId.toNat ++ [r.tag]
              ++ be 1 r.width ++ be 2 r.spp ++ be 3 r.period ++ be 2 r.depth ++ be 1 r.priority
              ++ be 4 r.startBeat.toNat ++ be 1 (bit r.baseline.isSome 0 + bit r.resumeMark 1 + bit r.eased 2)
              ++ be 2 b.expected.toNat ++ be 8 b.stamp.toNat ++ be 2 b.count.toNat ++ be 2 r.fifo.length
              ++ be 4 ((deadline.map (·.toNat)).getD 0) ++ be 1 (match r.closeBy with
                | some (.port p) => p.val
                | some .service => 12
                | none => 15)) u)) ∧
        (field args 1 1 = 1 →
          let entries := r.taps.flatMap (fun v => ((s.taps[v]).map (fun x => be 1 x.consumer.val ++ [x.tag])).getD (be 2 0))
          let c := r.counters
          exec (.readStream o ident args f) s = .next (replied o ident .readStream .done
            (be 1 r.taps.length ++ (entries ++ be 12 0).take 12
              ++ [c.accepted, c.dropped, c.stale, c.slip, c.early, c.late].flatMap (fun n => be 2 n.toNat)) u)) ∧
        (1 < field args 1 1 → exec (.readStream o ident args f) s =
          .next (replied o ident .readStream .badArg [] u)))

/-- FIND STREAM names the stream of a frame ID and a producer tag, with its state, or is refused NOT_FOUND; it changes nothing
(R88). -/
def Obligations.FindStream : Prop :=
  ∀ (o : Origin) (ident : Byte) (args : List Byte) (f : Fraction) (s : State), s.ready o = true →
    let u := orderTaken o f s
    (args.length ≠ 5 → args.length ≤ 32 →
      exec (.findStream o ident args f) s = .next (replied o ident .findStream .badArg [] u)) ∧
    (args.length = 5 →
      let frame : BitVec 32 := BitVec.ofNat 32 (field args 0 4)
      let tag : Byte := BitVec.ofNat 8 (field args 4 1)
      (∀ st r, s.StreamLaw → s.streams[(st : StreamIx)] = some r → r.frameId = frame → r.tag = tag →
        exec (.findStream o ident args f) s =
          .next (replied o ident .findStream .done (be 1 st.val ++ be 1 r.state.code) u)) ∧
      ((∀ st r, s.streams[(st : StreamIx)] = some r → ¬ (r.frameId = frame ∧ r.tag = tag)) →
        exec (.findStream o ident args f) s = .next (replied o ident .findStream .notFound [] u)))

/-- READ LINE, READ PIN and SETUP READ are replied DONE with the bytes of the record, of the pin or of the raw words as they
stand, and change nothing; out of range they are BAD_ARG, and SETUP READ is BUSY while a setup operation is in progress
(R141, R152, R167). The ticks left of a pulse are rounded up, the model's choice (notes/assumptions/11.md). -/
def Sys2Proof.Claims.RecordReads : Prop :=
  ∀ (o : Origin) (ident : Byte) (args : List Byte) (f : Fraction) (s : State), s.ready o = true → args.length ≤ 32 →
    let u := orderTaken o f s
    (args.length ≠ 1 ∨ 31 < field args 0 1 →
      exec (.readLine o ident args f) s = .next (replied o ident .readLine .badArg [] u)) ∧
    (args.length = 1 → ∀ l : LineIx, field args 0 1 = l.val →
      let x := s.lines[l]
      let pins := bit ((s.pins[(0 : PinIx)]).subscribes l) 0 + bit ((s.pins[(1 : PinIx)]).subscribes l) 1
        + bit ((s.pins[(2 : PinIx)]).subscribes l) 2 + bit ((s.pins[(3 : PinIx)]).subscribes l) 3
      exec (.readLine o ident args f) s = .next (replied o ident .readLine .done
        (be 2 x.latency ++ be 2 x.holdoff ++ be 2 (maskOf x.subscribers.toList) ++ be 1 (pins + bit x.last.isSome 7)
          ++ be 8 ((x.last.map (·.toNat)).getD 0) ++ [x.pendingMerged] ++ be 2 x.accepted.toNat ++ be 2 x.merged.toNat
          ++ be 2 x.late.toNat) u)) ∧
    (args.length ≠ 1 ∨ 3 < field args 0 1 →
      exec (.readPin o ident args f) s = .next (replied o ident .readPin .badArg [] u)) ∧
    (args.length = 1 → ∀ i : PinIx, field args 0 1 = i.val →
      let x := s.pins[i]
      let c := x.counters
      let left : Nat := match x.pulse with
        | some q => q.stop.toNat - u.now.toNat
        | none => 0
      let level : Bool := if x.mode = .output then (decide (0 < left)) != (x.polarity == 1) else x.wire
      exec (.readPin o ident args f) s = .next (replied o ident .readPin .done
        (be 1 (bit level 0 + 2 * x.mode.code + 8 * x.polarity + bit (decide (0 < left)) 5)
          ++ be 1 (x.line.val + 32 * x.fires.length) ++ be 1 x.width ++ be 1 (min ((left + 255) / 256) 255)
          ++ (x.fires.flatMap (fun g => be 8 g.toNat) ++ be 32 0).take 32
          ++ [c.edges, c.fires, c.mergedFires, c.lateFires, c.overruns].flatMap (fun n => be 2 n.toNat)) u)) ∧
    (let first := field args 0 1
     let count := field args 1 1
     (args.length ≠ 2 ∨ count = 0 ∨ 12 < count ∨ 24 < first + count →
        exec (.setupRead o ident args f) s = .next (replied o ident .setupRead .badArg [] u)) ∧
     (args.length = 2 → 1 ≤ count → count ≤ 12 → first + count ≤ 24 →
        (s.setup.operation ≠ none →
          exec (.setupRead o ident args f) s = .next (replied o ident .setupRead .busy [] u)) ∧
        (s.setup.operation = none → exec (.setupRead o ident args f) s = .next (replied o ident .setupRead .done
          (((s.setup.words.toList.drop first).take count).flatMap (fun w => be 4 w.toNat)) u))))

/-- The orders that only read (R43, R81, R89, R117, R141, R152, R167, R175). Where the state detail of READ TIMEBASE
stands in its 4 bytes is the model's choice (notes/assumptions/31.md). -/
def Obligations.ReadOrders : Prop :=
  Claims.TableReads ∧ Claims.RecordReads

/-- OPEN STREAM takes the lowest FREE record, with depth limit and priority clamped and the given start beat where it lies
ahead, else the next beat; a pair of frame ID and tag in use is CONFLICT, no record or a floor sum above 1020 NO_ROOM
(R85, R86, R87). -/
def Sys2Proof.Claims.OpenStream : Prop :=
  ∀ (p : PortIx) (ident : Byte) (args : List Byte) (f : Fraction) (s : State) (frame : BitVec 32),
    s.ready (.port p) = true → s.frameId p = some frame → args.length = 15 →
    let tag : Byte := BitVec.ofNat 8 (field args 0 1)
    let width := field args 1 1
    let spp := field args 2 2
    let period := field args 4 3
    let u := parcelTaken p f s
    let out := exec (.openStream (.port p) ident args f) s
    let fits : Prop := 1 ≤ width ∧ width ≤ 4 ∧ 1 ≤ spp ∧ width * spp ≤ 256 ∧ 1 ≤ period
    let taken : Prop := ∃ st r, s.streams[(st : StreamIx)] = some r ∧ r.frameId = frame ∧ r.tag = tag
    (¬ fits → out = .next (replied (.port p) ident .openStream .badArg [] u)) ∧
    (fits → taken → out = .next (replied (.port p) ident .openStream .conflict [] u)) ∧
    (fits → ¬ taken → (∀ st : StreamIx, s.streams[st] ≠ none) ∨ 1020 < s.floorSum →
      out = .next (replied (.port p) ident .openStream .noRoom [] u)) ∧
    (fits → ¬ taken → s.floorSum ≤ 1020 → ∀ st : StreamIx, s.streams[st] = none →
      (∀ a : StreamIx, a.val < st.val → s.streams[a] ≠ none) →
      let given : Beat := BitVec.ofNat 32 (field args 11 4)
      let ahead := (given - s.tb.beat).toNat
      let start : Beat :=
        if field args 10 1 % 2 = 1 ∧ 1 ≤ ahead ∧ ahead ≤ 2147483647 then given else s.tb.beat + 1
      out = .next (replied (.port p) ident .openStream .done (be 1 st.val ++ be 4 start.toNat)
        { u with streams := u.streams.set st (some {
          state := .opening, producer := some p, frameId := frame, tag := tag, width := width, spp := spp
          period := period, depth := max 8 (min (field args 7 2) 256), priority := min (field args 9 1) 3
          startBeat := start, baseline := none, resumeMark := false, eased := false, fifo := [], taps := []
          counters := ⟨0, 0, 0, 0, 0, 0⟩, drainDeadline := none, orphanDeadline := none, closeBy := none }) }))

/-- CLOSE STREAM by the first condition that holds: a wrong length or a number above 63 is BAD_ARG, a FREE record is
NOT_FOUND, a frame that does not produce the stream NOT_OWNER, a stream in DRAINING BUSY. Accepted with blocks in store it
starts the drain and stays RUNNING; without blocks the drain ends in the event, the record is FREE, the consumers are told
STREAM ENDED and the reply is DONE (R94, R95, R96, R98). -/
def Sys2Proof.Claims.CloseStream : Prop :=
  ∀ (o : Origin) (ident : Byte) (args : List Byte) (f : Fraction) (s : State), s.ready o = true → args.length ≤ 32 →
    let u := orderTaken o f s
    let out := exec (.closeStream o ident args f) s
    (args.length ≠ 1 ∨ 63 < field args 0 1 → out = .next (replied o ident .closeStream .badArg [] u)) ∧
    ∀ st : StreamIx, args.length = 1 → field args 0 1 = st.val →
    (s.streams[st] = none → out = .next (replied o ident .closeStream .notFound [] u)) ∧
    ∀ r, s.streams[st] = some r →
      let owns : Prop := match o with
        | .port p => r.producer = some p
        | .service => True
      (¬ owns → out = .next (replied o ident .closeStream .notOwner [] u)) ∧
      (owns → r.state = .draining → out = .next (replied o ident .closeStream .busy [] u)) ∧
      (owns → r.state ≠ .draining → r.fifo ≠ [] → out = .next (running o ident .closeStream
        { u with streams := u.streams.set st (some { r with
          state := .draining, producer := none, orphanDeadline := none, closeBy := some o
          drainDeadline := some (s.tb.beat + BitVec.ofNat 32 s.settings.drainLimit) }) })) ∧
      (owns → r.state ≠ .draining → r.fifo = [] → Runs out fun t =>
        t.streams[st] = none ∧ (∀ v ∈ r.taps, t.taps[v] = none) ∧
        (s.BlockLaw → DrainTold (running o ident .closeStream u) t st { r with closeBy := some o }) ∧
        ∃ q, t.origin o = some q ∧ q.slot = some ⟨ident, 0x09, some (.done, [])⟩ ∧
          .reply true ident 0x09 .done [] ∈ q.queue)

/-- OPEN STREAM and CLOSE STREAM (R85 to R87, R94 to R96, R98). That the DONE of a closing port follows its own STREAM
ENDED is the model's reading (DEDUCED, notes/assumptions/14.md). -/
def Obligations.StreamOrders : Prop :=
  Claims.OpenStream ∧ Claims.CloseStream

/-- The set of ADD TAP and ALTER TAP in their argument bytes: present flags, window open, window close, decimation, byte
order, lag limit. There is none for a decimation other than 1, 2, 4, 8 and 16, another byte order, or a window of which
both ends are present and the close is not after the open (R120, R128, Table 29). -/
def Sys2Proof.Claims.TapArguments : Prop :=
  ∀ (args : List Byte) (off : Nat),
    let flags := field args off 1
    let opens := field args (off + 1) 8
    let closes := field args (off + 9) 8
    let n := field args (off + 17) 1
    let order := field args (off + 18) 1
    let bad : Prop := n ∉ [1, 2, 4, 8, 16] ∨ 1 < order ∨ (flags % 2 = 1 ∧ flags / 2 % 2 = 1 ∧ closes ≤ opens)
    (bad → tapSettings? args off = none) ∧
    (¬ bad → tapSettings? args off = some {
      windowOpen := if flags % 2 = 1 then some (BitVec.ofNat 64 opens) else none
      windowClose := if flags / 2 % 2 = 1 then some (BitVec.ofNat 64 closes) else none
      decimation := n, reversed := order == 1, lag := field args (off + 19) 2 })

/-- Wrong arguments are BAD_ARG before any other condition: the number of bytes, a stream above 63, a port above 11, a set
that is none; a tag that is none of the port's taps is NOT_FOUND to one who may name the port (R120, R121, R128, R130). -/
def Sys2Proof.Claims.TapRefusals : Prop :=
  ∀ (o : Origin) (ident : Byte) (args : List Byte) (f : Fraction) (s : State), s.ready o = true → args.length ≤ 32 →
    let u := orderTaken o f s
    let foreign (p : PortIx) : Prop := o ≠ .service ∧ o ≠ .port p
    (args.length ≠ 24 ∨ 63 < field args 0 1 ∨ 11 < field args 1 1 ∨ tapSettings? args 3 = none →
      exec (.addTap o ident args f) s = .next (replied o ident .addTap .badArg [] u)) ∧
    (args.length ≠ 23 ∨ 11 < field args 0 1 ∨ tapSettings? args 2 = none →
      exec (.alterTap o ident args f) s = .next (replied o ident .alterTap .badArg [] u)) ∧
    (args.length ≠ 2 ∨ 11 < field args 0 1 →
      exec (.dropTap o ident args f) s = .next (replied o ident .dropTap .badArg [] u)) ∧
    ∀ p : PortIx, field args 0 1 = p.val →
      (∀ (v : TapIx) x, s.taps[v] = some x → x.consumer = p → x.tag ≠ BitVec.ofNat 8 (field args 1 1)) →
      (args.length = 23 → tapSettings? args 2 ≠ none →
        (foreign p → exec (.alterTap o ident args f) s = .next (replied o ident .alterTap .notOwner [] u)) ∧
        (¬ foreign p → exec (.alterTap o ident args f) s = .next (replied o ident .alterTap .notFound [] u))) ∧
      (args.length = 2 → exec (.dropTap o ident args f) s = .next (replied o ident .dropTap .notFound [] u))

/-- ADD TAP takes the lowest free record: the phase follows the stream's expected sequence, a lag limit of 0 is the depth
limit. Refused by the first condition that holds: NOT_OWNER, NOT_ACTIVE, NOT_FOUND, BUSY, BAD_ARG, NO_ROOM, CONFLICT
(R120, R121). -/
def Sys2Proof.Claims.AddTap : Prop :=
  ∀ (o : Origin) (st : StreamIx) (p : PortIx) (given : TapSettings) (ident : Byte) (args : List Byte) (f : Fraction)
    (s : State), s.ready o = true → args.length = 24 → field args 0 1 = st.val → field args 1 1 = p.val →
    tapSettings? args 3 = some given →
    let tag : Byte := BitVec.ofNat 8 (field args 2 1)
    let u := orderTaken o f s
    let refused (c : ResultCode) : Prop :=
      exec (.addTap o ident args f) s = .next (replied o ident .addTap c [] u)
    let own : Prop := o = .service ∨ o = .port p
    let taken : Prop := ∃ v x, s.taps[(v : TapIx)] = some x ∧ x.consumer = p ∧ (x.stream = st ∨ x.tag = tag)
    (¬ own → refused .notOwner) ∧
    (own → (s.ports[p]).state ≠ .active → refused .notActive) ∧
    (own → (s.ports[p]).state = .active → s.streams[st] = none → refused .notFound) ∧
    (own → (s.ports[p]).state = .active → ∀ r, s.streams[st] = some r →
      (r.state = .draining → refused .busy) ∧
      (r.state ≠ .draining → r.depth < given.lag → refused .badArg) ∧
      (r.state ≠ .draining → given.lag ≤ r.depth → 6 ≤ r.taps.length ∨ (∀ v : TapIx, s.taps[v] ≠ none) →
        refused .noRoom) ∧
      (r.state ≠ .draining → given.lag ≤ r.depth → r.taps.length < 6 → ∀ v : TapIx, s.taps[v] = none →
        (taken → refused .conflict) ∧
        (¬ taken → (∀ a : TapIx, a.val < v.val → s.taps[a] ≠ none) →
          let phase := r.baseline.map (fun b => b.expected.toNat % given.decimation)
          exec (.addTap o ident args f) s = .next (replied o ident .addTap .done
            (be 1 v.val ++ be 1 (phase.getD 255))
            { u with
              taps := u.taps.set v (some {
                stream := st, consumer := p, tag := tag
                settings := { given with lag := if given.lag = 0 then r.depth else given.lag }
                phase := phase, pending := [], inFlight := none, sequence := 0, owed := 0, staged := none })
              streams := u.streams.set st (some { r with taps := r.taps ++ [v] }) }))))

/-- ALTER TAP stages its whole set for the next beat; DROP TAP removes the tap, releasing what pends, and tells the
consumer where another origin dropped it (R115, R128, R130, R131). -/
def Sys2Proof.Claims.AlterAndDropTap : Prop :=
  ∀ (o : Origin) (v : TapIx) (x : Tap) (r : Stream) (ident : Byte) (args : List Byte) (f : Fraction) (s : State),
    s.ready o = true → s.TapLaw → s.taps[v] = some x → s.streams[x.stream] = some r →
    field args 0 1 = x.consumer.val → BitVec.ofNat 8 (field args 1 1) = x.tag →
    let u := orderTaken o f s
    let own : Prop := o = .service ∨ o = .port x.consumer
    (∀ given, args.length = 23 → tapSettings? args 2 = some given →
      (¬ own → exec (.alterTap o ident args f) s = .next (replied o ident .alterTap .notOwner [] u)) ∧
      (own → r.state = .draining → exec (.alterTap o ident args f) s = .next (replied o ident .alterTap .busy [] u)) ∧
      (own → r.state ≠ .draining → r.depth < given.lag →
        exec (.alterTap o ident args f) s = .next (replied o ident .alterTap .badArg [] u)) ∧
      (own → r.state ≠ .draining → given.lag ≤ r.depth → exec (.alterTap o ident args f) s =
        .next (replied o ident .alterTap .done []
          { u with taps := u.taps.set v (some { x with staged := some given }) }))) ∧
    (args.length = 2 →
      let produces : Prop := ∃ q, o = .port q ∧ s.produces q x.stream = true
      (¬ own → ¬ produces → exec (.dropTap o ident args f) s = .next (replied o ident .dropTap .notOwner [] u)) ∧
      (own ∨ produces → x.pending = [] → r.state ≠ .draining →
        exec (.dropTap o ident args f) s =
          let t := replied o ident .dropTap .done [] { u with
            taps := u.taps.set v none
            streams := u.streams.set x.stream (some { r with taps := r.taps.filter (· != v) }) }
          .next (if o = .port x.consumer then t
            else noticed (.port x.consumer) .tapEnded (x.tag :: (be 1 x.stream.val ++ be 1 2 ++ be 2 x.owed.toNat)) t)) ∧
      (own ∨ produces → Runs (exec (.dropTap o ident args f) s) fun t =>
        t.taps[v] = none ∧ (∃ q, t.origin o = some q ∧ q.slot = some ⟨ident, 0x0E, some (.done, [])⟩) ∧
        (r.state ≠ .draining → s.PoolLaw → s.BlockLaw →
          t.taps = s.taps.set v none ∧ t.store.free = s.store.free ++ freed x.pending r.fifo ∧
          (∃ eased, t.streams[x.stream] = some { r with
            fifo := released x.pending r.fifo, taps := r.taps.filter (· != v), eased := eased }) ∧
          (o ≠ .port x.consumer → r.producer ≠ some x.consumer → t.origin (.port x.consumer) =
            s.told (.port x.consumer) [(.tapEnded, x.tag :: (be 1 x.stream.val ++ be 1 2 ++ be 2 x.owed.toNat))]))))

/-- ADD TAP, ALTER TAP and DROP TAP (R115, R120, R121, R128, R130, R131). The order in which several freed blocks join the
free list is the model's choice (notes/assumptions/23.md). -/
def Obligations.TapOrders : Prop :=
  Claims.TapArguments ∧ Claims.TapRefusals ∧ Claims.AddTap ∧ Claims.AlterAndDropTap

/-- SUBSCRIBE LINE and UNSUBSCRIBE LINE act on the origin's own port; from S, with another number of argument bytes, or
for a line above 31 they are BAD_ARG, and from a port that is not ACTIVE NOT_ACTIVE; the trigger queue of the port stands
(R140). -/
def Obligations.Subscriptions : Prop :=
  (∀ (p : PortIx) (ident : Byte) (args : List Byte) (f : Fraction) (s : State), s.slotFree (.port p) = true →
    args.length ≤ 32 → (s.ports[p]).state = .joining ∨ (s.ports[p]).state = .admitted ∨ (s.ports[p]).state = .leaving →
    exec (.subscribeLine (.port p) ident args f) s =
        .next (replied (.port p) ident .subscribeLine .notActive [] (parcelTaken p f s)) ∧
      exec (.unsubscribeLine (.port p) ident args f) s =
        .next (replied (.port p) ident .unsubscribeLine .notActive [] (parcelTaken p f s))) ∧
  ∀ (o : Origin) (ident : Byte) (args : List Byte) (f : Fraction) (s : State), s.ready o = true → args.length ≤ 32 →
    let u := orderTaken o f s
    (o = .service ∨ args.length ≠ 1 ∨ 31 < field args 0 1 →
      exec (.subscribeLine o ident args f) s = .next (replied o ident .subscribeLine .badArg [] u) ∧
      exec (.unsubscribeLine o ident args f) s = .next (replied o ident .unsubscribeLine .badArg [] u)) ∧
    ∀ (p : PortIx) (l : LineIx), o = .port p → args.length = 1 → field args 0 1 = l.val →
      exec (.subscribeLine o ident args f) s = .next (replied o ident .subscribeLine .done []
        (modLine l (fun x => { x with subscribers := x.subscribers.set p true }) u)) ∧
      exec (.unsubscribeLine o ident args f) s = .next (replied o ident .unsubscribeLine .done []
        (modLine l (fun x => { x with subscribers := x.subscribers.set p false }) u))

/-- SET LINE clamps the latency to 64 or more and takes effect at once. SET PIN clamps the width to 1 or more: an OUT pin
that stays OUT on its line with its polarity keeps fire list and pulse, every other change empties them, and a pin that
enters IN takes its level as reference (R139, R148). The polarity codes taken in OFF are the model's choice
(notes/assumptions/10.md); so is the level that a pin from OUT to IN takes, the last one given (notes/assumptions/28.md).
-/
def Obligations.SetLineAndPin : Prop :=
  ∀ (ident : Byte) (args : List Byte) (f : Fraction) (s : State), s.ready .service = true → args.length = 5 →
    let u := opened f s
    (31 < field args 0 1 → exec (.setLine .service ident args f) s =
      .next (replied .service ident .setLine .badArg [] u)) ∧
    (∀ l : LineIx, field args 0 1 = l.val →
      let latency := max 64 (min (field args 1 2) 65535)
      exec (.setLine .service ident args f) s = .next (replied .service ident .setLine .done
        (be 2 latency ++ be 2 (field args 3 2))
        (modLine l (fun x => { x with latency := latency, holdoff := field args 3 2 }) u))) ∧
    (3 < field args 0 1 ∨ 2 < field args 1 1 ∨ 31 < field args 3 1 ∨ 2 < field args 2 1 ∨
      (field args 1 1 = 2 ∧ 1 < field args 2 1) →
      exec (.setPin .service ident args f) s = .next (replied .service ident .setPin .badArg [] u)) ∧
    ∀ (i : PinIx) (mode : PinMode) (l : LineIx), field args 0 1 = i.val → pinMode? (field args 1 1) = some mode →
      field args 3 1 = l.val → field args 2 1 ≤ (if mode = .output then 1 else 2) →
      let x := s.pins[i]
      let width := max 1 (min (field args 4 1) 255)
      let stays : Prop := x.mode = .output ∧ mode = .output ∧ x.line = l ∧ x.polarity = field args 2 1
      let set (fires : List Stamp) (pulse : Option Pulse) (reference : Bool) : State := modPin i (fun x => { x with
        mode := mode, polarity := field args 2 1, line := l, width := width
        fires := fires, pulse := pulse, reference := reference }) u
      (stays → exec (.setPin .service ident args f) s =
        .next (replied .service ident .setPin .done (be 1 width) (set x.fires x.pulse x.reference))) ∧
      (¬ stays → exec (.setPin .service ident args f) s =
        .next (replied .service ident .setPin .done (be 1 width)
          (set [] none (if mode = .input ∧ x.mode ≠ .input then x.wire else x.reference))))

/-- SET PARAM: the beat exponent and the rack identity are NOT_PERMITTED, an unknown code, a port above 11 and a flag that
is neither 0 nor 1 BAD_ARG, another port from a frame NOT_PERMITTED; otherwise the value is clamped, replied and in force,
a local trim also in k and k_s while FREE, a cleared enable bit as a reset that ends in VACANT, with the re-run of
selection and the notices to S, a set one as the start of a present VACANT port (R40, R41, R62, R68, R76, R170, Tables 25,
26 and 30). -/
def Sys2Proof.Claims.SetParameters : Prop :=
  ∀ (o : Origin) (ident : Byte) (args : List Byte) (f : Fraction) (s : State), s.ready o = true → args.length = 6 →
    (o = .service ∨ s.settings.frameWrite = true) →
    let u := orderTaken o f s
    let code := field args 0 1
    let given : Int := (BitVec.ofNat 32 (field args 2 4)).toInt
    let out := exec (.setParam o ident args f) s
    let refused (r : ResultCode) : Prop := out = .next (replied o ident .setParam r [] u)
    let set (v : Int) (g : Settings → Settings) : Prop :=
      out = .next (replied o ident .setParam .done (be 4 (BitVec.ofInt 32 v).toNat) { u with settings := g u.settings })
    let clamped (lo hi : Int) : Int := max lo (min given hi)
    (code = 0x20 ∨ code = 0x21 → refused .notPermitted) ∧
    (code = 0 ∨ (0x10 < code ∧ code ≠ 0x20 ∧ code ≠ 0x21) → refused .badArg) ∧
    (code = 0x01 ∨ code = 0x07 ∨ code = 0x10 →
      (11 < field args 1 1 → refused .badArg) ∧
      (∀ p q : PortIx, o = .port q → field args 1 1 = p.val → p ≠ q → refused .notPermitted) ∧
      ∀ p : PortIx, field args 1 1 = p.val → (o = .service ∨ o = .port p) →
        (code ≠ 0x07 → given ≠ 0 → given ≠ 1 → refused .badArg) ∧
        (code = 0x07 → set (clamped (-4096) 4095) (fun w => { w with
          asymmetry := w.asymmetry.set p (clamped (-4096) 4095) })) ∧
        (code = 0x10 → given = 0 ∨ given = 1 →
          set given (fun w => { w with ranked := w.ranked.set p (given == 1) })) ∧
        (code = 0x01 → given = 1 → ((s.ports[p]).state = .vacant ∧ (s.ports[p]).presence = true → Runs out fun t =>
            (t.ports[p]).state = .listening ∧ t.settings.enable[p] = true ∧ t.HoldsNothing p) ∧
          (¬ ((s.ports[p]).state = .vacant ∧ (s.ports[p]).presence = true) →
            set 1 (fun w => { w with enable := w.enable.set p true }))) ∧
        (code = 0x01 → given = 0 → ((s.ports[p]).state = .vacant → set 0 (fun w => { w with enable := w.enable.set p false })) ∧
          ((s.ports[p]).state ≠ .vacant → Runs out fun t =>
            (t.ports[p]).state = .vacant ∧ t.settings.enable[p] = false ∧ (t.ports[p]).failures = 0 ∧ t.HoldsNothing p ∧
            LeavesService p .disable (replied o ident .setParam .done (be 4 0) u) t ∧
            ((s.ports[p]).state = .active → t.StandsNowhere p ∧
              ∀ st r, s.streams[(st : StreamIx)] = some r → s.produces p st = true → Drains s t st r)))) ∧
    (code = 0x02 ∨ code = 0x09 → given ≠ 0 → given ≠ 1 → refused .badArg) ∧
    (code = 0x02 → given = 0 ∨ given = 1 → set given (fun w => { w with frameWrite := given == 1 })) ∧
    (code = 0x03 → set (clamped 16 4095) (fun w => { w with gate := (clamped 16 4095).toNat })) ∧
    (code = 0x04 → set (clamped 1 255) (fun w => { w with slew := (clamped 1 255).toNat })) ∧
    (code = 0x05 → set (clamped 1 64) (fun w => { w with promptCount := (clamped 1 64).toNat })) ∧
    (code = 0x06 → set (clamped 4 8) (fun w => { w with echoExp := (clamped 4 8).toNat })) ∧
    (code = 0x08 →
      (s.tb.state ≠ .free → set (clamped (-2047) 2047) (fun w => { w with localTrim := clamped (-2047) 2047 })) ∧
      (s.tb.state = .free → out = .next (replied o ident .setParam .done
        (be 4 (BitVec.ofInt 32 (clamped (-2047) 2047)).toNat)
        { u with
          settings := { u.settings with localTrim := clamped (-2047) 2047 }
          tb := { u.tb with trim := clamped (-2047) 2047, savedTrim := clamped (-2047) 2047 } }))) ∧
    (code = 0x09 → given = 0 ∨ given = 1 → Runs out fun t =>
      t.settings = { s.settings with refinEnable := given == 1 } ∧ t.ports = u.ports ∧ t.streams = s.streams ∧
      t.tb.candidates = s.tb.candidates ∧
      (s.tb.state = .free ∨ s.tb.state = .holdover → s.tb.refinActive = false → s.ReferenceLaw → t.tb = s.tb)) ∧
    (code = 0x0A → Runs out fun t =>
      t.settings = { s.settings with refinClass := (clamped 0 3).toNat } ∧ t.ports = u.ports ∧ t.streams = s.streams ∧
      t.tb.candidates = s.tb.candidates ∧
      (s.tb.state = .free ∨ s.tb.state = .holdover → s.eligible .refin = none → s.ReferenceLaw → t.tb = s.tb)) ∧
    (code = 0x0B → set (clamped 16 65535) (fun w => { w with holdoverLimit := (clamped 16 65535).toNat })) ∧
    (code = 0x0C → set (clamped 1 65535) (fun w => { w with orphanHold := (clamped 1 65535).toNat })) ∧
    (code = 0x0D → set (clamped 1 4095) (fun w => { w with drainLimit := (clamped 1 4095).toNat })) ∧
    (code = 0x0E → set (clamped 8 4095) (fun w => { w with joinLimit := (clamped 8 4095).toNat })) ∧
    (code = 0x0F → set (clamped 1 255) (fun w => { w with holdLimit := (clamped 1 255).toNat }))

/-- A SET PARAM of REFIN's enable or class re-runs selection behind its reply. Enabled in FREE, with no other candidate,
an active REFIN is acquired; disabled as the reference, with no other candidate, it leaves LOCKED for HOLDOVER and
ACQUIRING for FREE. In LOCKED a class that puts it above the reference and at or above the others switches to it, and
where no candidate is then above the reference nothing changes. S and the ports are told (R63, R67 to R70, R75, R76, R78).
The cause of an acquisition where REFIN, the reference, has lowered its own class by SET PARAM is the model's choice
(notes/assumptions/26.md). -/
def Sys2Proof.Claims.ReferenceParameters : Prop :=
  ∀ (o : Origin) (ident : Byte) (args : List Byte) (f : Fraction) (s : State), s.ready o = true → args.length = 6 →
    (o = .service ∨ s.settings.frameWrite = true) →
    let given : Int := (BitVec.ofNat 32 (field args 2 4)).toInt
    let acquiring (c : Source) (x : Timebase) : Timebase := { x with
      state := .acquiring, selected := some c, trim := x.savedTrim, pull := 0, comparisons := 0, inWindow := 0
      expected := none, edges := 0, edgeSince := s.clock.cycle }
    let set (v : Int) (w : Settings) : State :=
      replied o ident .setParam .done (be 4 (BitVec.ofInt 32 v).toNat) { orderTaken o f s with settings := w }
    let leads (u : State) (x : Timebase) (notice : List Byte) : Prop := Runs (exec (.setParam o ident args f) s) fun t =>
      t.tb = x ∧ t.settings = u.settings ∧ t.ports = u.ports ∧ t.streams = u.streams ∧
      t.origin .service = u.told .service [(.timebaseEvent, notice)] ∧ RolesTold u t
    let now := (opened f s).now
    (field args 0 1 = 0x09 → given = 0 ∨ given = 1 →
      Reselects (set given { s.settings with refinEnable := given == 1 }) 6 (exec (.setParam o ident args f) s)) ∧
    (field args 0 1 = 0x0A →
      let n := (max 0 (min given 3)).toNat
      Reselects (set n { s.settings with refinClass := n }) 6 (exec (.setParam o ident args f) s)) ∧
    (field args 0 1 = 0x09 → given = 1 →
      let u := set 1 { s.settings with refinEnable := true }
      (s.tb.state = .free → s.tb.selected = none → (∀ p : PortIx, s.eligible (.port p) = none) →
        s.tb.refinActive = true → s.tb.refinFailed = false →
        leads u (acquiring .refin s.tb) (timebaseFields 0 1 1 14 s.settings.refinClass s.tb.savedTrim now))) ∧
    (field args 0 1 = 0x09 → given = 0 → s.tb.selected = some .refin → (∀ p : PortIx, s.eligible (.port p) = none) →
      let u := set 0 { s.settings with refinEnable := false }
      (s.tb.state = .locked → leads u { s.tb with
          state := .holdover, selected := none, trim := s.tb.savedTrim, pull := 0, excursions := 0, holdoverBeats := 0
          unlocks := satAdd s.tb.unlocks 1 }
        (timebaseFields 2 3 6 15 0 s.tb.savedTrim now)) ∧
      (s.tb.state = .acquiring → leads u { s.tb with
          state := .free, selected := none, trim := s.settings.localTrim, savedTrim := s.settings.localTrim, pull := 0 }
        (timebaseFields 1 0 6 15 0 s.settings.localTrim now))) ∧
    (field args 0 1 = 0x0A → s.tb.state = .locked → s.selectedEligible = true →
      let n := (max 0 (min given 3)).toNat
      let u := set n { s.settings with refinClass := n }
      (s.tb.selected ≠ some .refin → s.eligible .refin ≠ none → s.classOf s.tb.selected < n →
        (∀ (p : PortIx) x, s.eligible (.port p) = some x → x.cls ≤ n) →
        leads u (acquiring .refin s.tb) (timebaseFields 2 1 2 14 n s.tb.savedTrim now)) ∧
      (∀ cls, cls = (if s.tb.selected = some .refin then n else s.classOf s.tb.selected) →
        (s.eligible .refin ≠ none → n ≤ cls) → (∀ (p : PortIx) x, s.eligible (.port p) = some x → x.cls ≤ cls) →
        exec (.setParam o ident args f) s = .next u))

/-- SET PARAM: what it refuses, clamps and changes at once, and the selection that the REFIN parameters re-run (R40, R62,
R63, R67 to R70, R75, R76, R78, R170). The cause of an acquisition where REFIN, the reference, has lowered its own class
by SET PARAM is the model's choice (notes/assumptions/26.md). -/
def Obligations.SetParam : Prop :=
  Claims.SetParameters ∧ Claims.ReferenceParameters

/-- SETUP WRITE and SETUP CLEAR, by the first condition that holds: BUSY while an operation is in progress, PROTECTED for
words 0 to 22 of a protected store, CONFLICT on a programmed word; accepted, the operation is in progress for 187,500 or
2,500,000 ticks and the order stays RUNNING. A clear erases every word from its taking on (R168, R169). -/
def Sys2Proof.Claims.SetupTaken : Prop :=
  ∀ (o : Origin) (ident : Byte) (args : List Byte) (f : Fraction) (s : State), s.ready o = true →
    (o = .service ∨ s.settings.frameWrite = true) →
    let u := orderTaken o f s
    let protects : Prop := s.setup.words[(23 : Fin 24)] ≠ 0xFFFFFFFF ∧ s.setup.words[(23 : Fin 24)].getLsbD 0 = true
    (args.length = 5 →
      let out := exec (.setupWrite o ident args f) s
      (23 < field args 0 1 → out = .next (replied o ident .setupWrite .badArg [] u)) ∧
      ∀ w : Fin 24, field args 0 1 = w.val →
        (s.setup.operation ≠ none → out = .next (replied o ident .setupWrite .busy [] u)) ∧
        (s.setup.operation = none → w.val ≤ 22 → protects →
          out = .next (replied o ident .setupWrite .isProtected [] u)) ∧
        (s.setup.operation = none → ¬ (w.val ≤ 22 ∧ protects) →
          (s.setup.words[w] ≠ 0xFFFFFFFF → out = .next (replied o ident .setupWrite .conflict [] u)) ∧
          (s.setup.words[w] = 0xFFFFFFFF → out = .next (running o ident .setupWrite
            { u with setup := ⟨s.setup.words,
              some ⟨some (w, BitVec.ofNat 32 (field args 1 4)), o, u.now + 48000000⟩⟩ })))) ∧
    (args = [] →
      let out := exec (.setupClear o ident args f) s
      (s.setup.operation ≠ none → out = .next (replied o ident .setupClear .busy [] u)) ∧
      (s.setup.operation = none → out = .next (running o ident .setupClear
        { u with setup := ⟨Vector.replicate 24 0xFFFFFFFF, some ⟨none, o, u.now + 640000000⟩⟩ })))

/-- At its completion time a write programs its word, a clear leaves every word erased, and no operation is in progress;
the order is answered DONE where it still runs in its origin's slot. Before that time nothing happens (R161, R168, R169).
-/
def Sys2Proof.Claims.SetupCompletions : Prop :=
  ∀ (s : State) (x : SetupOperation), s.inService = true → s.setup.operation = some x →
    let done (c : OrderCode) (words : Vector (BitVec 32) 24) (out : Host.Outcome State Fault Refusal) : Prop :=
      let t : State := { begin_ s with setup := ⟨words, none⟩ }
      (reached s.now x.completes = false → out = .next (begin_ s)) ∧
      (reached s.now x.completes = true →
        (∀ q ident, s.origin x.origin = some q → q.slot = some ⟨ident, c.byte, none⟩ → q.hasReply = false →
          out = .next (replied x.origin ident c .done [] t)) ∧
        (∀ q ident, s.origin x.origin = some q → q.slot = some ⟨ident, c.byte, none⟩ → q.hasReply = true →
          out = .next (modOrigin x.origin (fun q => { q with slot := some ⟨ident, c.byte, some (.done, [])⟩ }) t)) ∧
        ((∀ q slot, s.origin x.origin = some q → q.slot = some slot → slot.code ≠ c.byte ∨ slot.answer ≠ none) →
          out = .next t))
    (∀ w v, x.write = some (w, v) → done .setupWrite (s.setup.words.set w v) (exec .setupWriteCompletion s)) ∧
    (x.write = none → done .setupClear (Vector.replicate 24 0xFFFFFFFF) (exec .setupClearCompletion s))

/-- The setup operations: taken, refused and completed (R161, R168, R169). That a command whose condition does not hold
changes nothing is the model's choice (notes/assumptions/7.md). That a completion time inside a cycle counts from the next
one is the model's choice too (notes/assumptions/32.md). Completion times are compared across the wrap of rack time
(notes/assumptions/15.md). -/
def Obligations.SetupOrders : Prop :=
  Claims.SetupTaken ∧ Claims.SetupCompletions

/-- RESTART HUB with a parcel in flight leaves every port VACANT and holding nothing, no tap, every stream draining, and
stays RUNNING; no port is a candidate any longer, and selection re-runs on what is left. With no parcel in flight it
completes in the event, and RESTART_COMPLETION completes it once none is: all streams FREE, all blocks free, settings
reloaded, counters 0, enabled present ports LISTENING, rack time and beat exponent kept, and DONE the only entry of S's
queue (R44, R68, R82, R105, R118, R137, R153, R165, R172). That a command whose condition does not hold changes nothing is
the model's choice (notes/assumptions/7.md). When the completion follows the last TAIL is its choice too
(notes/assumptions/32.md). The order of the reload and of the local trim is its reading (notes/assumptions/21.md). The
reference level of a pin that the store makes IN is the last one given, the model's choice (notes/assumptions/28.md). -/
def Obligations.RestartHub : Prop :=
  let completed (ident : Byte) (s t : State) : Prop :=
    t.restarting = false ∧ sameRackTime s t ∧ t.tb.beatExp = s.tb.beatExp ∧ t.tb.beat = s.tb.beat ∧
    t.setup = s.setup ∧ t.settings = loadSettings s.setup.words ∧ t.store = ⟨List.range 1024, 1024, 0, 0⟩ ∧
    (∀ st : StreamIx, t.streams[st] = none) ∧ (∀ v : TapIx, t.taps[v] = none) ∧
    (∀ l : LineIx, t.lines[l] = ⟨t.settings.defaultLatency, t.settings.defaultHoldoff, Vector.replicate 12 false, none,
      0, 0, 0, 0⟩) ∧
    (∀ i : PinIx, t.pins[i] = loadPin s.setup.words i (s.pins[i]).wire) ∧
    (t.tb.locks, t.tb.unlocks, t.tb.acquisitionFailures, t.tb.holdoverExpiries) = (0, 0, 0, 0) ∧
    (t.tb.state = .free → t.tb.trim = t.settings.localTrim ∧ t.tb.savedTrim = t.settings.localTrim) ∧
    t.service.discards = 0 ∧
    t.service.origin = ⟨some ⟨ident, 0x1A, some (.done, [])⟩, [.reply true ident 0x1A .done []], 0, false⟩ ∧
    t.attn = true ∧ ∀ p : PortIx,
      (t.ports[p]).state = (if (s.ports[p]).presence && t.settings.enable[p] then .listening else .vacant) ∧
      (t.ports[p]).presence = (s.ports[p]).presence ∧ (t.ports[p]).counters = PortCounters.zero ∧
      (t.ports[p]).failures = 0 ∧ (t.ports[p]).fillRun = 0 ∧ t.HoldsNothing p ∧ (t.egress[p]).flight = none ∧
      (t.egress[p]).rotation = 127
  (∀ (ident : Byte) (f : Fraction) (s : State), s.ready .service = true →
    ((∀ (p : PortIx) x, (s.egress[p]).flight = some x → x.kind = .plain ∧ x.stop ≤ 2 * s.clock.cycle) →
      Runs (exec (.restartHub .service ident [] f) s) fun t => completed ident s t ∧
        (∀ q : PortIx, s.tb.state = .locked → s.tb.selected = some (.port q) → s.tb.candidates[q] ≠ none →
          s.tb.refinActive = false ∨ s.tb.refinFailed = true →
          t.tb.state = .holdover ∧ t.tb.selected = none ∧ t.tb.trim = s.tb.savedTrim ∧ t.tb.pull = 0)) ∧
    (∀ (p : PortIx) x, (s.egress[p]).flight = some x → x.kind ≠ .plain ∨ 2 * s.clock.cycle + 1 < x.stop →
      Runs (exec (.restartHub .service ident [] f) s) fun t =>
        t.restarting = true ∧ t.service.origin.slot = some ⟨ident, 0x1A, none⟩ ∧ sameRackTime s t ∧
        (let left : Timebase := { s.tb with candidates := Vector.replicate 12 none }
         (∀ q : PortIx, s.tb.selected = some (.port q) → s.tb.candidates[q] ≠ none → s.eligible .refin = none →
          (s.tb.state = .locked → t.tb = { left with
            state := .holdover, selected := none, trim := s.tb.savedTrim, pull := 0, excursions := 0, holdoverBeats := 0
            unlocks := satAdd s.tb.unlocks 1 }) ∧
          (s.tb.state = .acquiring → t.tb = { left with
            state := .free, selected := none, trim := s.settings.localTrim, savedTrim := s.settings.localTrim
            pull := 0 })) ∧
         (s.tb.selected = some .refin → s.eligible .refin ≠ none → s.tb.state = .locked ∨ s.tb.state = .acquiring →
          t.tb = left)) ∧
        (∀ q : PortIx, (t.ports[q]).state = .vacant ∧ (t.egress[q]).flight = (s.egress[q]).flight ∧
          ((s.ports[q]).state ≠ .vacant → t.HoldsNothing q)) ∧
        (∀ v : TapIx, t.taps[v] = none) ∧
        ∀ st r, t.streams[(st : StreamIx)] = some r → r.state = .draining ∧ r.producer = none ∧ r.closeBy = none)) ∧
  ∀ (ident : Byte) (s : State), s.atRest = false →
    (s.restarting = false ∨ s.anyFlight = true → exec .restartCompletion s = .next (begin_ s)) ∧
    (s.restarting = true → s.anyFlight = false → s.service.origin.slot = some ⟨ident, 0x1A, none⟩ →
      Runs (exec .restartCompletion s) (completed ident s))

/-- The service port. A SEND of a whole ORDER parcel is that order from S; a code that is not in the table is answered
UNKNOWN; a whole parcel that fails its check, or is no order, is discarded and counted; another lead byte and an
incomplete parcel, of fewer bytes than its length field says, do nothing; bytes behind a whole parcel are ignored (R155,
R162, R179). -/
def Sys2Proof.Claims.ServiceSend : Prop :=
  ∀ (f : Fraction) (s : State), s.atRest = false → s.service.transaction = .idle →
    let ignored := modService (fun v => { v with transaction := .ignored }) s
    (∀ (c : OrderCode) (ident : Byte) (args : List Byte), args.length ≤ 32 →
      exec (.send (0xA5 :: parcel 0x41 (ident :: c.byte :: args)) f) s = exec (c.command .service ident args f) ignored) ∧
    (∀ (code ident : Byte) (args : List Byte), args.length ≤ 32 → code = 0 ∨ 0x1A < code.toNat →
      s.slotFree .service = true →
      exec (.send (0xA5 :: parcel 0x41 (ident :: code :: args)) f) s = .next (modOrigin .service (fun q => { q with
        slot := some ⟨ident, code, some (.unknown, [])⟩
        queue := q.queue ++ [.reply true ident code .unknown []] }) (opened f ignored))) ∧
    (∀ (kind : Byte) (body : List Byte) (check : BitVec 16), body.length ≤ 279 →
      let checked := kind :: (be 2 body.length ++ body)
      (check ≠ crc16 checked ∨ kind ≠ 0x41 ∨ body.length < 2 ∨ 34 < body.length) →
      exec (.send (0xA5 :: (checked ++ be 2 check.toNat)) f) s =
        .next (modService (fun v => { v with discards := satInc8 v.discards }) (opened f ignored))) ∧
    (∀ (lead : Byte) (bytes : List Byte), lead ≠ 0xA5 → lead ≠ 0x5A →
      exec (.send (lead :: bytes) f) s = .next (opened f ignored)) ∧
    (∀ bytes : List Byte, bytes.length ≤ 4 →
      exec (.send (0xA5 :: bytes) f) s =
        .next (modService (fun v => { v with transaction := .sending bytes }) (opened f s))) ∧
    (∀ (kind : Byte) (n : BitVec 16) (rest : List Byte), rest.length < n.toNat + 2 →
      exec (.send (0xA5 :: kind :: (be 2 n.toNat ++ rest)) f) s = .next (modService (fun v => { v with
        transaction := .sending (kind :: (be 2 n.toNat ++ rest)) }) (opened f s))) ∧
    (∀ (kind : Byte) (n : BitVec 16) (rest more : List Byte), rest.length = n.toNat + 2 →
      exec (.send (0xA5 :: kind :: (be 2 n.toNat ++ rest ++ more)) f) s =
        exec (.send (0xA5 :: kind :: (be 2 n.toNat ++ rest)) f) s)

/-- A FETCH fixes the discard count and the head entry at its lead byte; the filler byte's end returns the count to 0; the
last check byte removes the entry if it is still the head, with its order from S's slot where it is that order's reply;
chip select ends the transaction and leaves the queue (R156, R162, R163). -/
def Sys2Proof.Claims.ServiceFetch : Prop :=
  ∀ s : State, s.atRest = false →
    let q := s.service.origin
    let set (t : Transaction) : State := modService (fun v => { v with transaction := t }) (begin_ s)
    (∀ f, s.service.transaction = .idle →
      (q.queue = [] → exec (.fetch f) s = .next (modService (fun v => { v with
        transaction := .fetching v.discards [] false }) (opened f s))) ∧
      (∀ e rest, q.queue = e :: rest → exec (.fetch f) s = .next (modService (fun v => { v with
        transaction := .fetching v.discards e.bytes true }) (opened f s)))) ∧
    (∀ filler bytes live, s.service.transaction = .fetching filler bytes live →
      exec .fillerByteShiftedOut s = .next (modService (fun v => { v with discards := 0 }) (begin_ s)) ∧
      (∀ i, s.service.shiftsOut i = ((filler :: bytes)[i]?).getD 0xFF)) ∧
    (∀ filler bytes, s.service.transaction = .fetching filler bytes false →
      exec .fetchCompletion s = .next (set .ignored)) ∧
    (∀ filler bytes e rest, s.service.transaction = .fetching filler bytes true → q.queue = e :: rest →
      let left (x : OriginState) : State := modService (fun v => { v with origin := x }) (set .ignored)
      (∀ k lost fields, e = .notice k lost fields → exec .fetchCompletion s = .next (left { q with queue := rest })) ∧
      (∀ i c r b, e = .reply true i c r b →
        exec .fetchCompletion s = .next (left { q with queue := rest, slot := none })) ∧
      (∀ i c r b i' c' r' b', e = .reply false i c r b → q.slot = some ⟨i', c', some (r', b')⟩ →
        rest.all (fun x => !x.isReply) = true →
        exec .fetchCompletion s = .next (left { q with queue := rest ++ [.reply true i' c' r' b'] }))) ∧
    exec .chipSelectRising s = .next (set .idle)

/-- The two transactions of the service port (R155, R156, R162, R163, R179). Transactions come as whole SEND and FETCH
commands, the model's choice (notes/assumptions/18.md). -/
def Obligations.ServicePort : Prop :=
  Claims.ServiceSend ∧ Claims.ServiceFetch
end

