-- ==== Sys2Proof/Laws/State.lean ====
section
/-! SUPPORT. One lemma per field of the state and update of one record: what the update leaves and what it writes. -/

namespace Sys2Proof.Machine

/-! ### at_ -/

@[simp] theorem at_clock (f : Fraction) (s : State) : (at_ f s).clock = { s.clock with elapsed := max s.clock.elapsed (s.elapsedAt f) } := rfl
@[simp] theorem at_ports (f : Fraction) (s : State) : (at_ f s).ports = s.ports := rfl
@[simp] theorem at_drainSets (f : Fraction) (s : State) : (at_ f s).drainSets = s.drainSets := rfl
@[simp] theorem at_delays (f : Fraction) (s : State) : (at_ f s).delays = s.delays := rfl
@[simp] theorem at_egress (f : Fraction) (s : State) : (at_ f s).egress = s.egress := rfl
@[simp] theorem at_triggers (f : Fraction) (s : State) : (at_ f s).triggers = s.triggers := rfl
@[simp] theorem at_origins (f : Fraction) (s : State) : (at_ f s).origins = s.origins := rfl
@[simp] theorem at_service (f : Fraction) (s : State) : (at_ f s).service = s.service := rfl
@[simp] theorem at_streams (f : Fraction) (s : State) : (at_ f s).streams = s.streams := rfl
@[simp] theorem at_store (f : Fraction) (s : State) : (at_ f s).store = s.store := rfl
@[simp] theorem at_taps (f : Fraction) (s : State) : (at_ f s).taps = s.taps := rfl
@[simp] theorem at_lines (f : Fraction) (s : State) : (at_ f s).lines = s.lines := rfl
@[simp] theorem at_pins (f : Fraction) (s : State) : (at_ f s).pins = s.pins := rfl
@[simp] theorem at_tb (f : Fraction) (s : State) : (at_ f s).tb = s.tb := rfl
@[simp] theorem at_settings (f : Fraction) (s : State) : (at_ f s).settings = s.settings := rfl
@[simp] theorem at_setup (f : Fraction) (s : State) : (at_ f s).setup = s.setup := rfl
@[simp] theorem at_atRest (f : Fraction) (s : State) : (at_ f s).atRest = s.atRest := rfl
@[simp] theorem at_restarting (f : Fraction) (s : State) : (at_ f s).restarting = s.restarting := rfl
@[simp] theorem at_posts (f : Fraction) (s : State) : (at_ f s).posts = s.posts := rfl
@[simp] theorem at_freeReads (f : Fraction) (s : State) : (at_ f s).freeReads = s.freeReads := rfl
@[simp] theorem at_pending (f : Fraction) (s : State) : (at_ f s).pending = s.pending := rfl

/-! ### begin_ -/

@[simp] theorem begin_clock (s : State) : (begin_ s).clock = s.clock := rfl
@[simp] theorem begin_ports (s : State) : (begin_ s).ports = s.ports := rfl
@[simp] theorem begin_drainSets (s : State) : (begin_ s).drainSets = s.drainSets := rfl
@[simp] theorem begin_delays (s : State) : (begin_ s).delays = s.delays := rfl
@[simp] theorem begin_egress (s : State) : (begin_ s).egress = s.egress := rfl
@[simp] theorem begin_triggers (s : State) : (begin_ s).triggers = s.triggers := rfl
@[simp] theorem begin_origins (s : State) : (begin_ s).origins = s.origins := rfl
@[simp] theorem begin_service (s : State) : (begin_ s).service = s.service := rfl
@[simp] theorem begin_streams (s : State) : (begin_ s).streams = s.streams := rfl
@[simp] theorem begin_store (s : State) : (begin_ s).store = s.store := rfl
@[simp] theorem begin_taps (s : State) : (begin_ s).taps = s.taps := rfl
@[simp] theorem begin_lines (s : State) : (begin_ s).lines = s.lines := rfl
@[simp] theorem begin_pins (s : State) : (begin_ s).pins = s.pins := rfl
@[simp] theorem begin_tb (s : State) : (begin_ s).tb = s.tb := rfl
@[simp] theorem begin_settings (s : State) : (begin_ s).settings = s.settings := rfl
@[simp] theorem begin_setup (s : State) : (begin_ s).setup = s.setup := rfl
@[simp] theorem begin_atRest (s : State) : (begin_ s).atRest = s.atRest := rfl
@[simp] theorem begin_restarting (s : State) : (begin_ s).restarting = s.restarting := rfl
@[simp] theorem begin_posts (s : State) : (begin_ s).posts = [] := rfl
@[simp] theorem begin_freeReads (s : State) : (begin_ s).freeReads = s.freeReads := rfl
@[simp] theorem begin_pending (s : State) : (begin_ s).pending = s.pending := rfl

/-! ### modPort -/

@[simp] theorem modPort_clock (p : PortIx) (f : Port → Port) (s : State) : (modPort p f s).clock = s.clock := rfl
@[simp] theorem modPort_ports (p : PortIx) (f : Port → Port) (s : State) : (modPort p f s).ports = s.ports.set p (f s.ports[p]) := rfl
@[simp] theorem modPort_drainSets (p : PortIx) (f : Port → Port) (s : State) : (modPort p f s).drainSets = s.drainSets := rfl
@[simp] theorem modPort_delays (p : PortIx) (f : Port → Port) (s : State) : (modPort p f s).delays = s.delays := rfl
@[simp] theorem modPort_egress (p : PortIx) (f : Port → Port) (s : State) : (modPort p f s).egress = s.egress := rfl
@[simp] theorem modPort_triggers (p : PortIx) (f : Port → Port) (s : State) : (modPort p f s).triggers = s.triggers := rfl
@[simp] theorem modPort_origins (p : PortIx) (f : Port → Port) (s : State) : (modPort p f s).origins = s.origins := rfl
@[simp] theorem modPort_service (p : PortIx) (f : Port → Port) (s : State) : (modPort p f s).service = s.service := rfl
@[simp] theorem modPort_streams (p : PortIx) (f : Port → Port) (s : State) : (modPort p f s).streams = s.streams := rfl
@[simp] theorem modPort_store (p : PortIx) (f : Port → Port) (s : State) : (modPort p f s).store = s.store := rfl
@[simp] theorem modPort_taps (p : PortIx) (f : Port → Port) (s : State) : (modPort p f s).taps = s.taps := rfl
@[simp] theorem modPort_lines (p : PortIx) (f : Port → Port) (s : State) : (modPort p f s).lines = s.lines := rfl
@[simp] theorem modPort_pins (p : PortIx) (f : Port → Port) (s : State) : (modPort p f s).pins = s.pins := rfl
@[simp] theorem modPort_tb (p : PortIx) (f : Port → Port) (s : State) : (modPort p f s).tb = s.tb := rfl
@[simp] theorem modPort_settings (p : PortIx) (f : Port → Port) (s : State) : (modPort p f s).settings = s.settings := rfl
@[simp] theorem modPort_setup (p : PortIx) (f : Port → Port) (s : State) : (modPort p f s).setup = s.setup := rfl
@[simp] theorem modPort_atRest (p : PortIx) (f : Port → Port) (s : State) : (modPort p f s).atRest = s.atRest := rfl
@[simp] theorem modPort_restarting (p : PortIx) (f : Port → Port) (s : State) : (modPort p f s).restarting = s.restarting := rfl
@[simp] theorem modPort_posts (p : PortIx) (f : Port → Port) (s : State) : (modPort p f s).posts = s.posts := rfl
@[simp] theorem modPort_freeReads (p : PortIx) (f : Port → Port) (s : State) : (modPort p f s).freeReads = s.freeReads := rfl
@[simp] theorem modPort_pending (p : PortIx) (f : Port → Port) (s : State) : (modPort p f s).pending = s.pending := rfl

/-! ### modDelay -/

@[simp] theorem modDelay_clock (p : PortIx) (f : Delay → Delay) (s : State) : (modDelay p f s).clock = s.clock := rfl
@[simp] theorem modDelay_ports (p : PortIx) (f : Delay → Delay) (s : State) : (modDelay p f s).ports = s.ports := rfl
@[simp] theorem modDelay_drainSets (p : PortIx) (f : Delay → Delay) (s : State) : (modDelay p f s).drainSets = s.drainSets := rfl
@[simp] theorem modDelay_delays (p : PortIx) (f : Delay → Delay) (s : State) : (modDelay p f s).delays = s.delays.set p (f s.delays[p]) := rfl
@[simp] theorem modDelay_egress (p : PortIx) (f : Delay → Delay) (s : State) : (modDelay p f s).egress = s.egress := rfl
@[simp] theorem modDelay_triggers (p : PortIx) (f : Delay → Delay) (s : State) : (modDelay p f s).triggers = s.triggers := rfl
@[simp] theorem modDelay_origins (p : PortIx) (f : Delay → Delay) (s : State) : (modDelay p f s).origins = s.origins := rfl
@[simp] theorem modDelay_service (p : PortIx) (f : Delay → Delay) (s : State) : (modDelay p f s).service = s.service := rfl
@[simp] theorem modDelay_streams (p : PortIx) (f : Delay → Delay) (s : State) : (modDelay p f s).streams = s.streams := rfl
@[simp] theorem modDelay_store (p : PortIx) (f : Delay → Delay) (s : State) : (modDelay p f s).store = s.store := rfl
@[simp] theorem modDelay_taps (p : PortIx) (f : Delay → Delay) (s : State) : (modDelay p f s).taps = s.taps := rfl
@[simp] theorem modDelay_lines (p : PortIx) (f : Delay → Delay) (s : State) : (modDelay p f s).lines = s.lines := rfl
@[simp] theorem modDelay_pins (p : PortIx) (f : Delay → Delay) (s : State) : (modDelay p f s).pins = s.pins := rfl
@[simp] theorem modDelay_tb (p : PortIx) (f : Delay → Delay) (s : State) : (modDelay p f s).tb = s.tb := rfl
@[simp] theorem modDelay_settings (p : PortIx) (f : Delay → Delay) (s : State) : (modDelay p f s).settings = s.settings := rfl
@[simp] theorem modDelay_setup (p : PortIx) (f : Delay → Delay) (s : State) : (modDelay p f s).setup = s.setup := rfl
@[simp] theorem modDelay_atRest (p : PortIx) (f : Delay → Delay) (s : State) : (modDelay p f s).atRest = s.atRest := rfl
@[simp] theorem modDelay_restarting (p : PortIx) (f : Delay → Delay) (s : State) : (modDelay p f s).restarting = s.restarting := rfl
@[simp] theorem modDelay_posts (p : PortIx) (f : Delay → Delay) (s : State) : (modDelay p f s).posts = s.posts := rfl
@[simp] theorem modDelay_freeReads (p : PortIx) (f : Delay → Delay) (s : State) : (modDelay p f s).freeReads = s.freeReads := rfl
@[simp] theorem modDelay_pending (p : PortIx) (f : Delay → Delay) (s : State) : (modDelay p f s).pending = s.pending := rfl

/-! ### modEgress -/

@[simp] theorem modEgress_clock (p : PortIx) (f : Egress → Egress) (s : State) : (modEgress p f s).clock = s.clock := rfl
@[simp] theorem modEgress_ports (p : PortIx) (f : Egress → Egress) (s : State) : (modEgress p f s).ports = s.ports := rfl
@[simp] theorem modEgress_drainSets (p : PortIx) (f : Egress → Egress) (s : State) : (modEgress p f s).drainSets = s.drainSets := rfl
@[simp] theorem modEgress_delays (p : PortIx) (f : Egress → Egress) (s : State) : (modEgress p f s).delays = s.delays := rfl
@[simp] theorem modEgress_egress (p : PortIx) (f : Egress → Egress) (s : State) : (modEgress p f s).egress = s.egress.set p (f s.egress[p]) := rfl
@[simp] theorem modEgress_triggers (p : PortIx) (f : Egress → Egress) (s : State) : (modEgress p f s).triggers = s.triggers := rfl
@[simp] theorem modEgress_origins (p : PortIx) (f : Egress → Egress) (s : State) : (modEgress p f s).origins = s.origins := rfl
@[simp] theorem modEgress_service (p : PortIx) (f : Egress → Egress) (s : State) : (modEgress p f s).service = s.service := rfl
@[simp] theorem modEgress_streams (p : PortIx) (f : Egress → Egress) (s : State) : (modEgress p f s).streams = s.streams := rfl
@[simp] theorem modEgress_store (p : PortIx) (f : Egress → Egress) (s : State) : (modEgress p f s).store = s.store := rfl
@[simp] theorem modEgress_taps (p : PortIx) (f : Egress → Egress) (s : State) : (modEgress p f s).taps = s.taps := rfl
@[simp] theorem modEgress_lines (p : PortIx) (f : Egress → Egress) (s : State) : (modEgress p f s).lines = s.lines := rfl
@[simp] theorem modEgress_pins (p : PortIx) (f : Egress → Egress) (s : State) : (modEgress p f s).pins = s.pins := rfl
@[simp] theorem modEgress_tb (p : PortIx) (f : Egress → Egress) (s : State) : (modEgress p f s).tb = s.tb := rfl
@[simp] theorem modEgress_settings (p : PortIx) (f : Egress → Egress) (s : State) : (modEgress p f s).settings = s.settings := rfl
@[simp] theorem modEgress_setup (p : PortIx) (f : Egress → Egress) (s : State) : (modEgress p f s).setup = s.setup := rfl
@[simp] theorem modEgress_atRest (p : PortIx) (f : Egress → Egress) (s : State) : (modEgress p f s).atRest = s.atRest := rfl
@[simp] theorem modEgress_restarting (p : PortIx) (f : Egress → Egress) (s : State) : (modEgress p f s).restarting = s.restarting := rfl
@[simp] theorem modEgress_posts (p : PortIx) (f : Egress → Egress) (s : State) : (modEgress p f s).posts = s.posts := rfl
@[simp] theorem modEgress_freeReads (p : PortIx) (f : Egress → Egress) (s : State) : (modEgress p f s).freeReads = s.freeReads := rfl
@[simp] theorem modEgress_pending (p : PortIx) (f : Egress → Egress) (s : State) : (modEgress p f s).pending = s.pending := rfl

/-! ### modTriggers -/

@[simp] theorem modTriggers_clock (p : PortIx) (f : TriggerQueue → TriggerQueue) (s : State) : (modTriggers p f s).clock = s.clock := rfl
@[simp] theorem modTriggers_ports (p : PortIx) (f : TriggerQueue → TriggerQueue) (s : State) : (modTriggers p f s).ports = s.ports := rfl
@[simp] theorem modTriggers_drainSets (p : PortIx) (f : TriggerQueue → TriggerQueue) (s : State) : (modTriggers p f s).drainSets = s.drainSets := rfl
@[simp] theorem modTriggers_delays (p : PortIx) (f : TriggerQueue → TriggerQueue) (s : State) : (modTriggers p f s).delays = s.delays := rfl
@[simp] theorem modTriggers_egress (p : PortIx) (f : TriggerQueue → TriggerQueue) (s : State) : (modTriggers p f s).egress = s.egress := rfl
@[simp] theorem modTriggers_triggers (p : PortIx) (f : TriggerQueue → TriggerQueue) (s : State) : (modTriggers p f s).triggers = s.triggers.set p (f s.triggers[p]) := rfl
@[simp] theorem modTriggers_origins (p : PortIx) (f : TriggerQueue → TriggerQueue) (s : State) : (modTriggers p f s).origins = s.origins := rfl
@[simp] theorem modTriggers_service (p : PortIx) (f : TriggerQueue → TriggerQueue) (s : State) : (modTriggers p f s).service = s.service := rfl
@[simp] theorem modTriggers_streams (p : PortIx) (f : TriggerQueue → TriggerQueue) (s : State) : (modTriggers p f s).streams = s.streams := rfl
@[simp] theorem modTriggers_store (p : PortIx) (f : TriggerQueue → TriggerQueue) (s : State) : (modTriggers p f s).store = s.store := rfl
@[simp] theorem modTriggers_taps (p : PortIx) (f : TriggerQueue → TriggerQueue) (s : State) : (modTriggers p f s).taps = s.taps := rfl
@[simp] theorem modTriggers_lines (p : PortIx) (f : TriggerQueue → TriggerQueue) (s : State) : (modTriggers p f s).lines = s.lines := rfl
@[simp] theorem modTriggers_pins (p : PortIx) (f : TriggerQueue → TriggerQueue) (s : State) : (modTriggers p f s).pins = s.pins := rfl
@[simp] theorem modTriggers_tb (p : PortIx) (f : TriggerQueue → TriggerQueue) (s : State) : (modTriggers p f s).tb = s.tb := rfl
@[simp] theorem modTriggers_settings (p : PortIx) (f : TriggerQueue → TriggerQueue) (s : State) : (modTriggers p f s).settings = s.settings := rfl
@[simp] theorem modTriggers_setup (p : PortIx) (f : TriggerQueue → TriggerQueue) (s : State) : (modTriggers p f s).setup = s.setup := rfl
@[simp] theorem modTriggers_atRest (p : PortIx) (f : TriggerQueue → TriggerQueue) (s : State) : (modTriggers p f s).atRest = s.atRest := rfl
@[simp] theorem modTriggers_restarting (p : PortIx) (f : TriggerQueue → TriggerQueue) (s : State) : (modTriggers p f s).restarting = s.restarting := rfl
@[simp] theorem modTriggers_posts (p : PortIx) (f : TriggerQueue → TriggerQueue) (s : State) : (modTriggers p f s).posts = s.posts := rfl
@[simp] theorem modTriggers_freeReads (p : PortIx) (f : TriggerQueue → TriggerQueue) (s : State) : (modTriggers p f s).freeReads = s.freeReads := rfl
@[simp] theorem modTriggers_pending (p : PortIx) (f : TriggerQueue → TriggerQueue) (s : State) : (modTriggers p f s).pending = s.pending := rfl

/-! ### setDrainSet -/

@[simp] theorem setDrainSet_clock (p : PortIx) (l : List StreamIx) (s : State) : (setDrainSet p l s).clock = s.clock := rfl
@[simp] theorem setDrainSet_ports (p : PortIx) (l : List StreamIx) (s : State) : (setDrainSet p l s).ports = s.ports := rfl
@[simp] theorem setDrainSet_drainSets (p : PortIx) (l : List StreamIx) (s : State) : (setDrainSet p l s).drainSets = s.drainSets.set p l := rfl
@[simp] theorem setDrainSet_delays (p : PortIx) (l : List StreamIx) (s : State) : (setDrainSet p l s).delays = s.delays := rfl
@[simp] theorem setDrainSet_egress (p : PortIx) (l : List StreamIx) (s : State) : (setDrainSet p l s).egress = s.egress := rfl
@[simp] theorem setDrainSet_triggers (p : PortIx) (l : List StreamIx) (s : State) : (setDrainSet p l s).triggers = s.triggers := rfl
@[simp] theorem setDrainSet_origins (p : PortIx) (l : List StreamIx) (s : State) : (setDrainSet p l s).origins = s.origins := rfl
@[simp] theorem setDrainSet_service (p : PortIx) (l : List StreamIx) (s : State) : (setDrainSet p l s).service = s.service := rfl
@[simp] theorem setDrainSet_streams (p : PortIx) (l : List StreamIx) (s : State) : (setDrainSet p l s).streams = s.streams := rfl
@[simp] theorem setDrainSet_store (p : PortIx) (l : List StreamIx) (s : State) : (setDrainSet p l s).store = s.store := rfl
@[simp] theorem setDrainSet_taps (p : PortIx) (l : List StreamIx) (s : State) : (setDrainSet p l s).taps = s.taps := rfl
@[simp] theorem setDrainSet_lines (p : PortIx) (l : List StreamIx) (s : State) : (setDrainSet p l s).lines = s.lines := rfl
@[simp] theorem setDrainSet_pins (p : PortIx) (l : List StreamIx) (s : State) : (setDrainSet p l s).pins = s.pins := rfl
@[simp] theorem setDrainSet_tb (p : PortIx) (l : List StreamIx) (s : State) : (setDrainSet p l s).tb = s.tb := rfl
@[simp] theorem setDrainSet_settings (p : PortIx) (l : List StreamIx) (s : State) : (setDrainSet p l s).settings = s.settings := rfl
@[simp] theorem setDrainSet_setup (p : PortIx) (l : List StreamIx) (s : State) : (setDrainSet p l s).setup = s.setup := rfl
@[simp] theorem setDrainSet_atRest (p : PortIx) (l : List StreamIx) (s : State) : (setDrainSet p l s).atRest = s.atRest := rfl
@[simp] theorem setDrainSet_restarting (p : PortIx) (l : List StreamIx) (s : State) : (setDrainSet p l s).restarting = s.restarting := rfl
@[simp] theorem setDrainSet_posts (p : PortIx) (l : List StreamIx) (s : State) : (setDrainSet p l s).posts = s.posts := rfl
@[simp] theorem setDrainSet_freeReads (p : PortIx) (l : List StreamIx) (s : State) : (setDrainSet p l s).freeReads = s.freeReads := rfl
@[simp] theorem setDrainSet_pending (p : PortIx) (l : List StreamIx) (s : State) : (setDrainSet p l s).pending = s.pending := rfl

/-! ### modStream -/

@[simp] theorem modStream_clock (st : StreamIx) (f : Stream → Stream) (s : State) : (modStream st f s).clock = s.clock := rfl
@[simp] theorem modStream_ports (st : StreamIx) (f : Stream → Stream) (s : State) : (modStream st f s).ports = s.ports := rfl
@[simp] theorem modStream_drainSets (st : StreamIx) (f : Stream → Stream) (s : State) : (modStream st f s).drainSets = s.drainSets := rfl
@[simp] theorem modStream_delays (st : StreamIx) (f : Stream → Stream) (s : State) : (modStream st f s).delays = s.delays := rfl
@[simp] theorem modStream_egress (st : StreamIx) (f : Stream → Stream) (s : State) : (modStream st f s).egress = s.egress := rfl
@[simp] theorem modStream_triggers (st : StreamIx) (f : Stream → Stream) (s : State) : (modStream st f s).triggers = s.triggers := rfl
@[simp] theorem modStream_origins (st : StreamIx) (f : Stream → Stream) (s : State) : (modStream st f s).origins = s.origins := rfl
@[simp] theorem modStream_service (st : StreamIx) (f : Stream → Stream) (s : State) : (modStream st f s).service = s.service := rfl
@[simp] theorem modStream_streams (st : StreamIx) (f : Stream → Stream) (s : State) : (modStream st f s).streams = s.streams.set st (s.streams[st].map f) := rfl
@[simp] theorem modStream_store (st : StreamIx) (f : Stream → Stream) (s : State) : (modStream st f s).store = s.store := rfl
@[simp] theorem modStream_taps (st : StreamIx) (f : Stream → Stream) (s : State) : (modStream st f s).taps = s.taps := rfl
@[simp] theorem modStream_lines (st : StreamIx) (f : Stream → Stream) (s : State) : (modStream st f s).lines = s.lines := rfl
@[simp] theorem modStream_pins (st : StreamIx) (f : Stream → Stream) (s : State) : (modStream st f s).pins = s.pins := rfl
@[simp] theorem modStream_tb (st : StreamIx) (f : Stream → Stream) (s : State) : (modStream st f s).tb = s.tb := rfl
@[simp] theorem modStream_settings (st : StreamIx) (f : Stream → Stream) (s : State) : (modStream st f s).settings = s.settings := rfl
@[simp] theorem modStream_setup (st : StreamIx) (f : Stream → Stream) (s : State) : (modStream st f s).setup = s.setup := rfl
@[simp] theorem modStream_atRest (st : StreamIx) (f : Stream → Stream) (s : State) : (modStream st f s).atRest = s.atRest := rfl
@[simp] theorem modStream_restarting (st : StreamIx) (f : Stream → Stream) (s : State) : (modStream st f s).restarting = s.restarting := rfl
@[simp] theorem modStream_posts (st : StreamIx) (f : Stream → Stream) (s : State) : (modStream st f s).posts = s.posts := rfl
@[simp] theorem modStream_freeReads (st : StreamIx) (f : Stream → Stream) (s : State) : (modStream st f s).freeReads = s.freeReads := rfl
@[simp] theorem modStream_pending (st : StreamIx) (f : Stream → Stream) (s : State) : (modStream st f s).pending = s.pending := rfl

/-! ### modTap -/

@[simp] theorem modTap_clock (t : TapIx) (f : Tap → Tap) (s : State) : (modTap t f s).clock = s.clock := rfl
@[simp] theorem modTap_ports (t : TapIx) (f : Tap → Tap) (s : State) : (modTap t f s).ports = s.ports := rfl
@[simp] theorem modTap_drainSets (t : TapIx) (f : Tap → Tap) (s : State) : (modTap t f s).drainSets = s.drainSets := rfl
@[simp] theorem modTap_delays (t : TapIx) (f : Tap → Tap) (s : State) : (modTap t f s).delays = s.delays := rfl
@[simp] theorem modTap_egress (t : TapIx) (f : Tap → Tap) (s : State) : (modTap t f s).egress = s.egress := rfl
@[simp] theorem modTap_triggers (t : TapIx) (f : Tap → Tap) (s : State) : (modTap t f s).triggers = s.triggers := rfl
@[simp] theorem modTap_origins (t : TapIx) (f : Tap → Tap) (s : State) : (modTap t f s).origins = s.origins := rfl
@[simp] theorem modTap_service (t : TapIx) (f : Tap → Tap) (s : State) : (modTap t f s).service = s.service := rfl
@[simp] theorem modTap_streams (t : TapIx) (f : Tap → Tap) (s : State) : (modTap t f s).streams = s.streams := rfl
@[simp] theorem modTap_store (t : TapIx) (f : Tap → Tap) (s : State) : (modTap t f s).store = s.store := rfl
@[simp] theorem modTap_taps (t : TapIx) (f : Tap → Tap) (s : State) : (modTap t f s).taps = s.taps.set t (s.taps[t].map f) := rfl
@[simp] theorem modTap_lines (t : TapIx) (f : Tap → Tap) (s : State) : (modTap t f s).lines = s.lines := rfl
@[simp] theorem modTap_pins (t : TapIx) (f : Tap → Tap) (s : State) : (modTap t f s).pins = s.pins := rfl
@[simp] theorem modTap_tb (t : TapIx) (f : Tap → Tap) (s : State) : (modTap t f s).tb = s.tb := rfl
@[simp] theorem modTap_settings (t : TapIx) (f : Tap → Tap) (s : State) : (modTap t f s).settings = s.settings := rfl
@[simp] theorem modTap_setup (t : TapIx) (f : Tap → Tap) (s : State) : (modTap t f s).setup = s.setup := rfl
@[simp] theorem modTap_atRest (t : TapIx) (f : Tap → Tap) (s : State) : (modTap t f s).atRest = s.atRest := rfl
@[simp] theorem modTap_restarting (t : TapIx) (f : Tap → Tap) (s : State) : (modTap t f s).restarting = s.restarting := rfl
@[simp] theorem modTap_posts (t : TapIx) (f : Tap → Tap) (s : State) : (modTap t f s).posts = s.posts := rfl
@[simp] theorem modTap_freeReads (t : TapIx) (f : Tap → Tap) (s : State) : (modTap t f s).freeReads = s.freeReads := rfl
@[simp] theorem modTap_pending (t : TapIx) (f : Tap → Tap) (s : State) : (modTap t f s).pending = s.pending := rfl

/-! ### modLine -/

@[simp] theorem modLine_clock (l : LineIx) (f : Line → Line) (s : State) : (modLine l f s).clock = s.clock := rfl
@[simp] theorem modLine_ports (l : LineIx) (f : Line → Line) (s : State) : (modLine l f s).ports = s.ports := rfl
@[simp] theorem modLine_drainSets (l : LineIx) (f : Line → Line) (s : State) : (modLine l f s).drainSets = s.drainSets := rfl
@[simp] theorem modLine_delays (l : LineIx) (f : Line → Line) (s : State) : (modLine l f s).delays = s.delays := rfl
@[simp] theorem modLine_egress (l : LineIx) (f : Line → Line) (s : State) : (modLine l f s).egress = s.egress := rfl
@[simp] theorem modLine_triggers (l : LineIx) (f : Line → Line) (s : State) : (modLine l f s).triggers = s.triggers := rfl
@[simp] theorem modLine_origins (l : LineIx) (f : Line → Line) (s : State) : (modLine l f s).origins = s.origins := rfl
@[simp] theorem modLine_service (l : LineIx) (f : Line → Line) (s : State) : (modLine l f s).service = s.service := rfl
@[simp] theorem modLine_streams (l : LineIx) (f : Line → Line) (s : State) : (modLine l f s).streams = s.streams := rfl
@[simp] theorem modLine_store (l : LineIx) (f : Line → Line) (s : State) : (modLine l f s).store = s.store := rfl
@[simp] theorem modLine_taps (l : LineIx) (f : Line → Line) (s : State) : (modLine l f s).taps = s.taps := rfl
@[simp] theorem modLine_lines (l : LineIx) (f : Line → Line) (s : State) : (modLine l f s).lines = s.lines.set l (f s.lines[l]) := rfl
@[simp] theorem modLine_pins (l : LineIx) (f : Line → Line) (s : State) : (modLine l f s).pins = s.pins := rfl
@[simp] theorem modLine_tb (l : LineIx) (f : Line → Line) (s : State) : (modLine l f s).tb = s.tb := rfl
@[simp] theorem modLine_settings (l : LineIx) (f : Line → Line) (s : State) : (modLine l f s).settings = s.settings := rfl
@[simp] theorem modLine_setup (l : LineIx) (f : Line → Line) (s : State) : (modLine l f s).setup = s.setup := rfl
@[simp] theorem modLine_atRest (l : LineIx) (f : Line → Line) (s : State) : (modLine l f s).atRest = s.atRest := rfl
@[simp] theorem modLine_restarting (l : LineIx) (f : Line → Line) (s : State) : (modLine l f s).restarting = s.restarting := rfl
@[simp] theorem modLine_posts (l : LineIx) (f : Line → Line) (s : State) : (modLine l f s).posts = s.posts := rfl
@[simp] theorem modLine_freeReads (l : LineIx) (f : Line → Line) (s : State) : (modLine l f s).freeReads = s.freeReads := rfl
@[simp] theorem modLine_pending (l : LineIx) (f : Line → Line) (s : State) : (modLine l f s).pending = s.pending := rfl

/-! ### modPin -/

@[simp] theorem modPin_clock (i : PinIx) (f : Pin → Pin) (s : State) : (modPin i f s).clock = s.clock := rfl
@[simp] theorem modPin_ports (i : PinIx) (f : Pin → Pin) (s : State) : (modPin i f s).ports = s.ports := rfl
@[simp] theorem modPin_drainSets (i : PinIx) (f : Pin → Pin) (s : State) : (modPin i f s).drainSets = s.drainSets := rfl
@[simp] theorem modPin_delays (i : PinIx) (f : Pin → Pin) (s : State) : (modPin i f s).delays = s.delays := rfl
@[simp] theorem modPin_egress (i : PinIx) (f : Pin → Pin) (s : State) : (modPin i f s).egress = s.egress := rfl
@[simp] theorem modPin_triggers (i : PinIx) (f : Pin → Pin) (s : State) : (modPin i f s).triggers = s.triggers := rfl
@[simp] theorem modPin_origins (i : PinIx) (f : Pin → Pin) (s : State) : (modPin i f s).origins = s.origins := rfl
@[simp] theorem modPin_service (i : PinIx) (f : Pin → Pin) (s : State) : (modPin i f s).service = s.service := rfl
@[simp] theorem modPin_streams (i : PinIx) (f : Pin → Pin) (s : State) : (modPin i f s).streams = s.streams := rfl
@[simp] theorem modPin_store (i : PinIx) (f : Pin → Pin) (s : State) : (modPin i f s).store = s.store := rfl
@[simp] theorem modPin_taps (i : PinIx) (f : Pin → Pin) (s : State) : (modPin i f s).taps = s.taps := rfl
@[simp] theorem modPin_lines (i : PinIx) (f : Pin → Pin) (s : State) : (modPin i f s).lines = s.lines := rfl
@[simp] theorem modPin_pins (i : PinIx) (f : Pin → Pin) (s : State) : (modPin i f s).pins = s.pins.set i (f s.pins[i]) := rfl
@[simp] theorem modPin_tb (i : PinIx) (f : Pin → Pin) (s : State) : (modPin i f s).tb = s.tb := rfl
@[simp] theorem modPin_settings (i : PinIx) (f : Pin → Pin) (s : State) : (modPin i f s).settings = s.settings := rfl
@[simp] theorem modPin_setup (i : PinIx) (f : Pin → Pin) (s : State) : (modPin i f s).setup = s.setup := rfl
@[simp] theorem modPin_atRest (i : PinIx) (f : Pin → Pin) (s : State) : (modPin i f s).atRest = s.atRest := rfl
@[simp] theorem modPin_restarting (i : PinIx) (f : Pin → Pin) (s : State) : (modPin i f s).restarting = s.restarting := rfl
@[simp] theorem modPin_posts (i : PinIx) (f : Pin → Pin) (s : State) : (modPin i f s).posts = s.posts := rfl
@[simp] theorem modPin_freeReads (i : PinIx) (f : Pin → Pin) (s : State) : (modPin i f s).freeReads = s.freeReads := rfl
@[simp] theorem modPin_pending (i : PinIx) (f : Pin → Pin) (s : State) : (modPin i f s).pending = s.pending := rfl

/-! ### modTb -/

@[simp] theorem modTb_clock (f : Timebase → Timebase) (s : State) : (modTb f s).clock = s.clock := rfl
@[simp] theorem modTb_ports (f : Timebase → Timebase) (s : State) : (modTb f s).ports = s.ports := rfl
@[simp] theorem modTb_drainSets (f : Timebase → Timebase) (s : State) : (modTb f s).drainSets = s.drainSets := rfl
@[simp] theorem modTb_delays (f : Timebase → Timebase) (s : State) : (modTb f s).delays = s.delays := rfl
@[simp] theorem modTb_egress (f : Timebase → Timebase) (s : State) : (modTb f s).egress = s.egress := rfl
@[simp] theorem modTb_triggers (f : Timebase → Timebase) (s : State) : (modTb f s).triggers = s.triggers := rfl
@[simp] theorem modTb_origins (f : Timebase → Timebase) (s : State) : (modTb f s).origins = s.origins := rfl
@[simp] theorem modTb_service (f : Timebase → Timebase) (s : State) : (modTb f s).service = s.service := rfl
@[simp] theorem modTb_streams (f : Timebase → Timebase) (s : State) : (modTb f s).streams = s.streams := rfl
@[simp] theorem modTb_store (f : Timebase → Timebase) (s : State) : (modTb f s).store = s.store := rfl
@[simp] theorem modTb_taps (f : Timebase → Timebase) (s : State) : (modTb f s).taps = s.taps := rfl
@[simp] theorem modTb_lines (f : Timebase → Timebase) (s : State) : (modTb f s).lines = s.lines := rfl
@[simp] theorem modTb_pins (f : Timebase → Timebase) (s : State) : (modTb f s).pins = s.pins := rfl
@[simp] theorem modTb_tb (f : Timebase → Timebase) (s : State) : (modTb f s).tb = f s.tb := rfl
@[simp] theorem modTb_settings (f : Timebase → Timebase) (s : State) : (modTb f s).settings = s.settings := rfl
@[simp] theorem modTb_setup (f : Timebase → Timebase) (s : State) : (modTb f s).setup = s.setup := rfl
@[simp] theorem modTb_atRest (f : Timebase → Timebase) (s : State) : (modTb f s).atRest = s.atRest := rfl
@[simp] theorem modTb_restarting (f : Timebase → Timebase) (s : State) : (modTb f s).restarting = s.restarting := rfl
@[simp] theorem modTb_posts (f : Timebase → Timebase) (s : State) : (modTb f s).posts = s.posts := rfl
@[simp] theorem modTb_freeReads (f : Timebase → Timebase) (s : State) : (modTb f s).freeReads = s.freeReads := rfl
@[simp] theorem modTb_pending (f : Timebase → Timebase) (s : State) : (modTb f s).pending = s.pending := rfl

/-! ### modStore -/

@[simp] theorem modStore_clock (f : Store → Store) (s : State) : (modStore f s).clock = s.clock := rfl
@[simp] theorem modStore_ports (f : Store → Store) (s : State) : (modStore f s).ports = s.ports := rfl
@[simp] theorem modStore_drainSets (f : Store → Store) (s : State) : (modStore f s).drainSets = s.drainSets := rfl
@[simp] theorem modStore_delays (f : Store → Store) (s : State) : (modStore f s).delays = s.delays := rfl
@[simp] theorem modStore_egress (f : Store → Store) (s : State) : (modStore f s).egress = s.egress := rfl
@[simp] theorem modStore_triggers (f : Store → Store) (s : State) : (modStore f s).triggers = s.triggers := rfl
@[simp] theorem modStore_origins (f : Store → Store) (s : State) : (modStore f s).origins = s.origins := rfl
@[simp] theorem modStore_service (f : Store → Store) (s : State) : (modStore f s).service = s.service := rfl
@[simp] theorem modStore_streams (f : Store → Store) (s : State) : (modStore f s).streams = s.streams := rfl
@[simp] theorem modStore_store (f : Store → Store) (s : State) : (modStore f s).store = f s.store := rfl
@[simp] theorem modStore_taps (f : Store → Store) (s : State) : (modStore f s).taps = s.taps := rfl
@[simp] theorem modStore_lines (f : Store → Store) (s : State) : (modStore f s).lines = s.lines := rfl
@[simp] theorem modStore_pins (f : Store → Store) (s : State) : (modStore f s).pins = s.pins := rfl
@[simp] theorem modStore_tb (f : Store → Store) (s : State) : (modStore f s).tb = s.tb := rfl
@[simp] theorem modStore_settings (f : Store → Store) (s : State) : (modStore f s).settings = s.settings := rfl
@[simp] theorem modStore_setup (f : Store → Store) (s : State) : (modStore f s).setup = s.setup := rfl
@[simp] theorem modStore_atRest (f : Store → Store) (s : State) : (modStore f s).atRest = s.atRest := rfl
@[simp] theorem modStore_restarting (f : Store → Store) (s : State) : (modStore f s).restarting = s.restarting := rfl
@[simp] theorem modStore_posts (f : Store → Store) (s : State) : (modStore f s).posts = s.posts := rfl
@[simp] theorem modStore_freeReads (f : Store → Store) (s : State) : (modStore f s).freeReads = s.freeReads := rfl
@[simp] theorem modStore_pending (f : Store → Store) (s : State) : (modStore f s).pending = s.pending := rfl

/-! ### modService -/

@[simp] theorem modService_clock (f : Service → Service) (s : State) : (modService f s).clock = s.clock := rfl
@[simp] theorem modService_ports (f : Service → Service) (s : State) : (modService f s).ports = s.ports := rfl
@[simp] theorem modService_drainSets (f : Service → Service) (s : State) : (modService f s).drainSets = s.drainSets := rfl
@[simp] theorem modService_delays (f : Service → Service) (s : State) : (modService f s).delays = s.delays := rfl
@[simp] theorem modService_egress (f : Service → Service) (s : State) : (modService f s).egress = s.egress := rfl
@[simp] theorem modService_triggers (f : Service → Service) (s : State) : (modService f s).triggers = s.triggers := rfl
@[simp] theorem modService_origins (f : Service → Service) (s : State) : (modService f s).origins = s.origins := rfl
@[simp] theorem modService_service (f : Service → Service) (s : State) : (modService f s).service = f s.service := rfl
@[simp] theorem modService_streams (f : Service → Service) (s : State) : (modService f s).streams = s.streams := rfl
@[simp] theorem modService_store (f : Service → Service) (s : State) : (modService f s).store = s.store := rfl
@[simp] theorem modService_taps (f : Service → Service) (s : State) : (modService f s).taps = s.taps := rfl
@[simp] theorem modService_lines (f : Service → Service) (s : State) : (modService f s).lines = s.lines := rfl
@[simp] theorem modService_pins (f : Service → Service) (s : State) : (modService f s).pins = s.pins := rfl
@[simp] theorem modService_tb (f : Service → Service) (s : State) : (modService f s).tb = s.tb := rfl
@[simp] theorem modService_settings (f : Service → Service) (s : State) : (modService f s).settings = s.settings := rfl
@[simp] theorem modService_setup (f : Service → Service) (s : State) : (modService f s).setup = s.setup := rfl
@[simp] theorem modService_atRest (f : Service → Service) (s : State) : (modService f s).atRest = s.atRest := rfl
@[simp] theorem modService_restarting (f : Service → Service) (s : State) : (modService f s).restarting = s.restarting := rfl
@[simp] theorem modService_posts (f : Service → Service) (s : State) : (modService f s).posts = s.posts := rfl
@[simp] theorem modService_freeReads (f : Service → Service) (s : State) : (modService f s).freeReads = s.freeReads := rfl
@[simp] theorem modService_pending (f : Service → Service) (s : State) : (modService f s).pending = s.pending := rfl

/-! ### modSettings -/

@[simp] theorem modSettings_clock (f : Settings → Settings) (s : State) : (modSettings f s).clock = s.clock := rfl
@[simp] theorem modSettings_ports (f : Settings → Settings) (s : State) : (modSettings f s).ports = s.ports := rfl
@[simp] theorem modSettings_drainSets (f : Settings → Settings) (s : State) : (modSettings f s).drainSets = s.drainSets := rfl
@[simp] theorem modSettings_delays (f : Settings → Settings) (s : State) : (modSettings f s).delays = s.delays := rfl
@[simp] theorem modSettings_egress (f : Settings → Settings) (s : State) : (modSettings f s).egress = s.egress := rfl
@[simp] theorem modSettings_triggers (f : Settings → Settings) (s : State) : (modSettings f s).triggers = s.triggers := rfl
@[simp] theorem modSettings_origins (f : Settings → Settings) (s : State) : (modSettings f s).origins = s.origins := rfl
@[simp] theorem modSettings_service (f : Settings → Settings) (s : State) : (modSettings f s).service = s.service := rfl
@[simp] theorem modSettings_streams (f : Settings → Settings) (s : State) : (modSettings f s).streams = s.streams := rfl
@[simp] theorem modSettings_store (f : Settings → Settings) (s : State) : (modSettings f s).store = s.store := rfl
@[simp] theorem modSettings_taps (f : Settings → Settings) (s : State) : (modSettings f s).taps = s.taps := rfl
@[simp] theorem modSettings_lines (f : Settings → Settings) (s : State) : (modSettings f s).lines = s.lines := rfl
@[simp] theorem modSettings_pins (f : Settings → Settings) (s : State) : (modSettings f s).pins = s.pins := rfl
@[simp] theorem modSettings_tb (f : Settings → Settings) (s : State) : (modSettings f s).tb = s.tb := rfl
@[simp] theorem modSettings_settings (f : Settings → Settings) (s : State) : (modSettings f s).settings = f s.settings := rfl
@[simp] theorem modSettings_setup (f : Settings → Settings) (s : State) : (modSettings f s).setup = s.setup := rfl
@[simp] theorem modSettings_atRest (f : Settings → Settings) (s : State) : (modSettings f s).atRest = s.atRest := rfl
@[simp] theorem modSettings_restarting (f : Settings → Settings) (s : State) : (modSettings f s).restarting = s.restarting := rfl
@[simp] theorem modSettings_posts (f : Settings → Settings) (s : State) : (modSettings f s).posts = s.posts := rfl
@[simp] theorem modSettings_freeReads (f : Settings → Settings) (s : State) : (modSettings f s).freeReads = s.freeReads := rfl
@[simp] theorem modSettings_pending (f : Settings → Settings) (s : State) : (modSettings f s).pending = s.pending := rfl

/-! ### modSetup -/

@[simp] theorem modSetup_clock (f : Setup → Setup) (s : State) : (modSetup f s).clock = s.clock := rfl
@[simp] theorem modSetup_ports (f : Setup → Setup) (s : State) : (modSetup f s).ports = s.ports := rfl
@[simp] theorem modSetup_drainSets (f : Setup → Setup) (s : State) : (modSetup f s).drainSets = s.drainSets := rfl
@[simp] theorem modSetup_delays (f : Setup → Setup) (s : State) : (modSetup f s).delays = s.delays := rfl
@[simp] theorem modSetup_egress (f : Setup → Setup) (s : State) : (modSetup f s).egress = s.egress := rfl
@[simp] theorem modSetup_triggers (f : Setup → Setup) (s : State) : (modSetup f s).triggers = s.triggers := rfl
@[simp] theorem modSetup_origins (f : Setup → Setup) (s : State) : (modSetup f s).origins = s.origins := rfl
@[simp] theorem modSetup_service (f : Setup → Setup) (s : State) : (modSetup f s).service = s.service := rfl
@[simp] theorem modSetup_streams (f : Setup → Setup) (s : State) : (modSetup f s).streams = s.streams := rfl
@[simp] theorem modSetup_store (f : Setup → Setup) (s : State) : (modSetup f s).store = s.store := rfl
@[simp] theorem modSetup_taps (f : Setup → Setup) (s : State) : (modSetup f s).taps = s.taps := rfl
@[simp] theorem modSetup_lines (f : Setup → Setup) (s : State) : (modSetup f s).lines = s.lines := rfl
@[simp] theorem modSetup_pins (f : Setup → Setup) (s : State) : (modSetup f s).pins = s.pins := rfl
@[simp] theorem modSetup_tb (f : Setup → Setup) (s : State) : (modSetup f s).tb = s.tb := rfl
@[simp] theorem modSetup_settings (f : Setup → Setup) (s : State) : (modSetup f s).settings = s.settings := rfl
@[simp] theorem modSetup_setup (f : Setup → Setup) (s : State) : (modSetup f s).setup = f s.setup := rfl
@[simp] theorem modSetup_atRest (f : Setup → Setup) (s : State) : (modSetup f s).atRest = s.atRest := rfl
@[simp] theorem modSetup_restarting (f : Setup → Setup) (s : State) : (modSetup f s).restarting = s.restarting := rfl
@[simp] theorem modSetup_posts (f : Setup → Setup) (s : State) : (modSetup f s).posts = s.posts := rfl
@[simp] theorem modSetup_freeReads (f : Setup → Setup) (s : State) : (modSetup f s).freeReads = s.freeReads := rfl
@[simp] theorem modSetup_pending (f : Setup → Setup) (s : State) : (modSetup f s).pending = s.pending := rfl

/-! ### post -/

@[simp] theorem post_clock (o : Origin) (x : PostItem) (s : State) : (post o x s).clock = s.clock := rfl
@[simp] theorem post_ports (o : Origin) (x : PostItem) (s : State) : (post o x s).ports = s.ports := rfl
@[simp] theorem post_drainSets (o : Origin) (x : PostItem) (s : State) : (post o x s).drainSets = s.drainSets := rfl
@[simp] theorem post_delays (o : Origin) (x : PostItem) (s : State) : (post o x s).delays = s.delays := rfl
@[simp] theorem post_egress (o : Origin) (x : PostItem) (s : State) : (post o x s).egress = s.egress := rfl
@[simp] theorem post_triggers (o : Origin) (x : PostItem) (s : State) : (post o x s).triggers = s.triggers := rfl
@[simp] theorem post_origins (o : Origin) (x : PostItem) (s : State) : (post o x s).origins = s.origins := rfl
@[simp] theorem post_service (o : Origin) (x : PostItem) (s : State) : (post o x s).service = s.service := rfl
@[simp] theorem post_streams (o : Origin) (x : PostItem) (s : State) : (post o x s).streams = s.streams := rfl
@[simp] theorem post_store (o : Origin) (x : PostItem) (s : State) : (post o x s).store = s.store := rfl
@[simp] theorem post_taps (o : Origin) (x : PostItem) (s : State) : (post o x s).taps = s.taps := rfl
@[simp] theorem post_lines (o : Origin) (x : PostItem) (s : State) : (post o x s).lines = s.lines := rfl
@[simp] theorem post_pins (o : Origin) (x : PostItem) (s : State) : (post o x s).pins = s.pins := rfl
@[simp] theorem post_tb (o : Origin) (x : PostItem) (s : State) : (post o x s).tb = s.tb := rfl
@[simp] theorem post_settings (o : Origin) (x : PostItem) (s : State) : (post o x s).settings = s.settings := rfl
@[simp] theorem post_setup (o : Origin) (x : PostItem) (s : State) : (post o x s).setup = s.setup := rfl
@[simp] theorem post_atRest (o : Origin) (x : PostItem) (s : State) : (post o x s).atRest = s.atRest := rfl
@[simp] theorem post_restarting (o : Origin) (x : PostItem) (s : State) : (post o x s).restarting = s.restarting := rfl
@[simp] theorem post_posts (o : Origin) (x : PostItem) (s : State) : (post o x s).posts = s.posts ++ [⟨o, x⟩] := rfl
@[simp] theorem post_freeReads (o : Origin) (x : PostItem) (s : State) : (post o x s).freeReads = s.freeReads := rfl
@[simp] theorem post_pending (o : Origin) (x : PostItem) (s : State) : (post o x s).pending = s.pending := rfl

/-! ### modOrigin -/

@[simp] theorem modOrigin_clock (o : Origin) (f : OriginState → OriginState) (s : State) : (modOrigin o f s).clock = s.clock := by cases o <;> rfl
@[simp] theorem modOrigin_ports (o : Origin) (f : OriginState → OriginState) (s : State) : (modOrigin o f s).ports = s.ports := by cases o <;> rfl
@[simp] theorem modOrigin_drainSets (o : Origin) (f : OriginState → OriginState) (s : State) : (modOrigin o f s).drainSets = s.drainSets := by cases o <;> rfl
@[simp] theorem modOrigin_delays (o : Origin) (f : OriginState → OriginState) (s : State) : (modOrigin o f s).delays = s.delays := by cases o <;> rfl
@[simp] theorem modOrigin_egress (o : Origin) (f : OriginState → OriginState) (s : State) : (modOrigin o f s).egress = s.egress := by cases o <;> rfl
@[simp] theorem modOrigin_triggers (o : Origin) (f : OriginState → OriginState) (s : State) : (modOrigin o f s).triggers = s.triggers := by cases o <;> rfl
@[simp] theorem modOrigin_streams (o : Origin) (f : OriginState → OriginState) (s : State) : (modOrigin o f s).streams = s.streams := by cases o <;> rfl
@[simp] theorem modOrigin_store (o : Origin) (f : OriginState → OriginState) (s : State) : (modOrigin o f s).store = s.store := by cases o <;> rfl
@[simp] theorem modOrigin_taps (o : Origin) (f : OriginState → OriginState) (s : State) : (modOrigin o f s).taps = s.taps := by cases o <;> rfl
@[simp] theorem modOrigin_lines (o : Origin) (f : OriginState → OriginState) (s : State) : (modOrigin o f s).lines = s.lines := by cases o <;> rfl
@[simp] theorem modOrigin_pins (o : Origin) (f : OriginState → OriginState) (s : State) : (modOrigin o f s).pins = s.pins := by cases o <;> rfl
@[simp] theorem modOrigin_tb (o : Origin) (f : OriginState → OriginState) (s : State) : (modOrigin o f s).tb = s.tb := by cases o <;> rfl
@[simp] theorem modOrigin_settings (o : Origin) (f : OriginState → OriginState) (s : State) : (modOrigin o f s).settings = s.settings := by cases o <;> rfl
@[simp] theorem modOrigin_setup (o : Origin) (f : OriginState → OriginState) (s : State) : (modOrigin o f s).setup = s.setup := by cases o <;> rfl
@[simp] theorem modOrigin_atRest (o : Origin) (f : OriginState → OriginState) (s : State) : (modOrigin o f s).atRest = s.atRest := by cases o <;> rfl
@[simp] theorem modOrigin_restarting (o : Origin) (f : OriginState → OriginState) (s : State) : (modOrigin o f s).restarting = s.restarting := by cases o <;> rfl
@[simp] theorem modOrigin_posts (o : Origin) (f : OriginState → OriginState) (s : State) : (modOrigin o f s).posts = s.posts := by cases o <;> rfl
@[simp] theorem modOrigin_freeReads (o : Origin) (f : OriginState → OriginState) (s : State) : (modOrigin o f s).freeReads = s.freeReads := by cases o <;> rfl
@[simp] theorem modOrigin_pending (o : Origin) (f : OriginState → OriginState) (s : State) : (modOrigin o f s).pending = s.pending := by cases o <;> rfl
@[simp] theorem modOrigin_port_origins (p : PortIx) (f : OriginState → OriginState) (s : State) :
    (modOrigin (.port p) f s).origins = s.origins.set p (s.origins[p].map f) := rfl
@[simp] theorem modOrigin_port_service (p : PortIx) (f : OriginState → OriginState) (s : State) :
    (modOrigin (.port p) f s).service = s.service := rfl
@[simp] theorem modOrigin_service_origins (f : OriginState → OriginState) (s : State) :
    (modOrigin .service f s).origins = s.origins := rfl
@[simp] theorem modOrigin_service_service (f : OriginState → OriginState) (s : State) :
    (modOrigin .service f s).service = { s.service with origin := f s.service.origin } := rfl

end Sys2Proof.Machine
end

