-- ==== Sys2Proof/Laws/Ops.lean ====
section
/-! SUPPORT. What the shared operations can do: `each`, placing and flushing, and the end of an event. -/

namespace Sys2Proof.Machine

/-! ### each -/

@[simp] theorem each_nil {α : Type} (f : α → State → State) (s : State) : each [] f s = s := rfl

@[simp] theorem each_cons {α : Type} (i : α) (is : List α) (f : α → State → State) (s : State) :
    each (i :: is) f s = each is f (f i s) := rfl

/-- What every single application keeps, `each` keeps. -/
theorem each_induct {α : Type} {P : State → Prop} {f : α → State → State} {is : List α}
    (h : ∀ i ∈ is, ∀ s, P s → P (f i s)) : ∀ s, P s → P (each is f s) := by
  induction is with
  | nil => intro s hs; exact hs
  | cons i is ih =>
    intro s hs
    exact ih (fun j hj => h j (List.mem_cons_of_mem _ hj)) _ (h i List.mem_cons_self s hs)

/-- A view that no single application changes is not changed by `each`. -/
theorem each_frame {α β : Type} {g : State → β} {f : α → State → State} (is : List α)
    (h : ∀ i s, g (f i s) = g s) (s : State) : g (each is f s) = g s :=
  each_induct (P := fun t => g t = g s) (fun i _ t ht => (h i t).trans ht) s rfl

/-- `each` over steps that leave this state leaves it. -/
theorem each_fixed {α : Type} {f : α → State → State} {is : List α} {s : State}
    (h : ∀ i ∈ is, f i s = s) : each is f s = s := by
  induction is with
  | nil => rfl
  | cons i is ih =>
    rw [each_cons, h i List.mem_cons_self]
    exact ih (fun j hj => h j (List.mem_cons_of_mem _ hj))

theorem each_append {α : Type} (is js : List α) (f : α → State → State) (s : State) :
    each (is ++ js) f s = each js f (each is f s) := List.foldl_append

/-! ### Placing -/

/-- `place` touches the origins alone. -/
theorem place_port (x : Post) (s : State) : (place x s).ports = s.ports := by
  rcases x with ⟨o, _ | _ | ⟨k, b⟩⟩ <;> simp [place]

/-- A port queue is never shortened by placing. -/
theorem placeNotice_length (k : NoticeKind) (b : List Byte) (q : OriginState) :
    q.queue.length ≤ (q.placeNotice k b).queue.length ∧ (q.placeNotice k b).closed = q.closed := by
  unfold OriginState.placeNotice; split <;> [skip; split] <;> simp

theorem placeReply_length (q : OriginState) :
    q.queue.length ≤ q.placeReply.queue.length ∧ q.placeReply.closed = q.closed := by
  unfold OriginState.placeReply; split <;> [split; skip] <;> simp

/-- Everything but the origins and the service port's origin. -/
def State.sansOrigins (s : State) : State :=
  { s with origins := Vector.replicate 12 none, service := { s.service with origin := .initial } }

theorem modOrigin_sansOrigins (o : Origin) (f : OriginState → OriginState) (s : State) :
    (modOrigin o f s).sansOrigins = s.sansOrigins := by cases o <;> rfl

theorem place_sansOrigins (x : Post) (s : State) : (place x s).sansOrigins = s.sansOrigins := by
  rcases x with ⟨o, _ | _ | ⟨k, b⟩⟩ <;> exact modOrigin_sansOrigins ..

/-- The end of an event places what was posted and changes nothing but the origins and the posts. -/
theorem flush_sansOrigins (s : State) : (flush s).sansOrigins = { s with posts := [] }.sansOrigins := by
  unfold flush; exact each_frame (g := State.sansOrigins) _ (fun i s => place_sansOrigins i s) _

theorem flatMap_nil' {α β : Type} (l : List α) : l.flatMap (fun _ => ([] : List β)) = [] := by
  induction l <;> simp_all [List.flatMap_cons]

theorem flush_nil {s : State} (h : s.posts = []) : flush s = s := by
  have : ({ s with posts := [] } : State) = s := by cases s; simp_all
  unfold flush; rw [h, this]; simp only [ite_self, List.filter_nil, flatMap_nil']; rfl

theorem flush_restarting {s : State} (h : s.restarting = true) : flush s = { s with posts := [] } := by
  unfold flush; simp only [h, if_true, List.filter_nil, flatMap_nil']; rfl

/-! ### Parking -/

theorem mayPark_modOrigin {o : Origin} {f : OriginState → OriginState} {s : State} {p : PortIx}
    (hf : ∀ q, q.queue.length ≤ (f q).queue.length ∧ (f q).closed = q.closed)
    (h : (modOrigin o f s).mayPark p = true) : s.mayPark p = true := by
  cases o with
  | service => simpa [State.mayPark, modOrigin] using h
  | port r =>
    simp only [State.mayPark, modOrigin, Bool.and_eq_true] at h ⊢
    refine ⟨h.1, ?_⟩
    have h2 := h.2
    by_cases hr : r = p
    · subst hr
      simp only [Fin.getElem_fin, Vector.getElem_set_self] at h2 ⊢
      cases ho : s.origins[r.val] with
      | none => simp [ho] at h2
      | some q =>
        simp only [ho, Option.map_some, Bool.and_eq_true, Bool.not_eq_true', List.isEmpty_iff] at h2 ⊢
        have := hf q
        refine ⟨List.eq_nil_of_length_eq_zero ?_, this.2 ▸ h2.2⟩
        have h3 : (f q).queue.length = 0 := by rw [h2.1]; rfl
        omega
    · have : r.val ≠ p.val := fun e => hr (Fin.ext e)
      simpa [Vector.getElem_set, this] using h2

/-- No port comes to satisfy the parking conditions by what is placed. -/
theorem mayPark_place {x : Post} {s : State} {p : PortIx} (h : (place x s).mayPark p = true) : s.mayPark p = true := by
  rcases x with ⟨o, _ | _ | ⟨k, b⟩⟩
  · exact mayPark_modOrigin (fun q => placeReply_length q) h
  · exact mayPark_modOrigin (fun q => placeReply_length q) h
  · exact mayPark_modOrigin (fun q => placeNotice_length k b q) h

theorem mayPark_flush {s : State} {p : PortIx} (h : (flush s).mayPark p = true) : s.mayPark p = true := by
  have key : ∀ (l : List Post) (t : State), (each l place t).mayPark p = true → t.mayPark p = true := by
    intro l
    induction l with
    | nil => intro t ht; exact ht
    | cons x l ih => intro t ht; exact mayPark_place (ih _ ht)
  unfold flush at h
  simpa [State.mayPark] using key _ _ h

/-! ### The end of an event -/

/-- What the end of an event looks at in the streams: state and FIFO. -/
def sameFifos (s0 s : State) : Prop :=
  ∀ st : StreamIx, (s.streams[st]).map (fun r => (r.state, r.fifo)) = (s0.streams[st]).map (fun r => (r.state, r.fifo))

theorem isEmptied_eq (s : State) (st : StreamIx) :
    s.isEmptied st = ((s.streams[st]).map (fun r => (r.state, r.fifo))).any (fun x => x.1 == .draining && x.2.isEmpty) := by
  unfold State.isEmptied; cases s.streams[st] <;> rfl

theorem settleDrain_of_not {s : State} {st : StreamIx} (d : PostItem) (h : s.isEmptied st = false) :
    settleDrain d st s = s := by
  unfold State.isEmptied at h; unfold settleDrain
  cases hr : s.streams[st] with
  | none => rfl
  | some r =>
    rw [hr] at h
    have : ¬ (r.state = .draining ∧ r.fifo = []) := by rintro ⟨h1, h2⟩; simp [h1, h2] at h
    simp only [this, if_false]

theorem settleDrains_quiet {s0 s : State} (h : sameFifos s0 s) : settleDrains s0 s = s := by
  refine each_fixed fun st _ => ?_
  have hst : s.isEmptied st = s0.isEmptied st := by rw [isEmptied_eq, isEmptied_eq, h st]
  cases hq : s0.isEmptied st with
  | true => rfl
  | false => exact settleDrain_of_not _ (hst.trans hq)

theorem judgeAllEase_quiet {s0 s : State} (h : sameFifos s0 s) : judgeAllEase s0 s = s := by
  refine each_fixed fun st _ => ?_
  have hu : s0.uOf st = s.uOf st := by
    have hst := h st
    unfold State.uOf
    cases h1 : s.streams[st] <;> cases h0 : s0.streams[st] <;> simp_all [Stream.u]
  rw [if_pos hu]

theorem postRoles_quiet {s0 s : State} (h : s.tb.selected = s0.tb.selected) : postRoles s0 s = s := by
  simp [postRoles, h]

theorem queueFarewells_quiet {s0 s : State} (h : ∀ p, s.mayPark p = true → s0.mayPark p = true) :
    queueFarewells s0 s = s := by
  refine each_fixed fun p _ => ?_
  by_cases hp : s.mayPark p = true
  · simp [h p hp]
  · simp [queueFarewell, hp]

/-- An event that leaves the streams' FIFOs and the selected reference, and lets no port come to park, ends with the
placing of what it posted. -/
theorem finish_flush {s0 s : State} (hf : sameFifos s0 s) (hr : s.tb.selected = s0.tb.selected)
    (hp : ∀ p, s.mayPark p = true → s0.mayPark p = true) : finish s0 s = flush s := by
  unfold finish
  rw [settleDrains_quiet hf, judgeAllEase_quiet hf, postRoles_quiet hr]
  exact queueFarewells_quiet fun p h => hp p (mayPark_flush h)

/-- The same for an event that posts nothing. -/
theorem finish_quiet {s0 s : State} (hf : sameFifos s0 s) (hr : s.tb.selected = s0.tb.selected)
    (hp : ∀ p, s.mayPark p = true → s0.mayPark p = true) (hx : s.posts = []) : finish s0 s = s := by
  rw [finish_flush hf hr hp, flush_nil hx]

theorem sameFifos_of_eq {s0 s : State} (h : s.streams = s0.streams) : sameFifos s0 s := by
  intro st; rw [h]

/-- The parking conditions read the port states, the drain sets and the port origins. -/
theorem mayPark_congr {s0 s : State} {p : PortIx} (h1 : (s.ports[p]).state = (s0.ports[p]).state)
    (h2 : s.drainSets = s0.drainSets) (h3 : s.origins = s0.origins) : s.mayPark p = s0.mayPark p := by
  simp only [State.mayPark, h1, h2, h3]

/-- A running hub's event. -/
theorem event_running {f : State → State} {s : State} (h : s.atRest = false) :
    event f s = .next (finish s (f (begin_ s))) := by simp [event, h]

theorem event_atRest {f : State → State} {s : State} (h : s.atRest = true) : event f s = .next s := by
  simp [event, h]

end Sys2Proof.Machine
end

