-- ==== Sys2Proof/Laws/Blocks.lean ====
section
/-! SUPPORT. What the shared operations on queues, blocks, fire lists and bytes can do, each said once. -/

namespace Sys2Proof.Machine

/-! ### Queues (R154 to R159) -/

/-- All that placing a notice can do. -/
theorem placeNotice_cases (k : NoticeKind) (b : List Byte) (q : OriginState) :
    (q.closed = true ∧ q.placeNotice k b = q) ∨
    (q.closed = false ∧ q.notices < 7 ∧
      q.placeNotice k b = { q with queue := q.queue ++ [.notice k q.lost b], lost := 0 }) ∨
    (q.closed = false ∧ 7 ≤ q.notices ∧ q.placeNotice k b = { q with lost := satInc8 q.lost }) := by
  unfold OriginState.placeNotice
  by_cases hc : q.closed = true
  · exact .inl ⟨hc, by simp [hc]⟩
  · by_cases hn : q.notices < 7
    · exact .inr (.inl ⟨by simpa using hc, hn, by simp [hc, Config.noticePlaces, hn]⟩)
    · exact .inr (.inr ⟨by simpa using hc, by omega, by simp [hc, Config.noticePlaces, hn]⟩)

/-- All that placing a reply can do. -/
theorem placeReply_cases (q : OriginState) :
    q.placeReply = q ∨ ∃ i c r b, q.slot = some ⟨i, c, some (r, b)⟩ ∧ q.hasReply = false ∧
      q.placeReply = { q with queue := q.queue ++ [.reply true i c r b] } := by
  rcases hs : q.slot with _ | ⟨i, c, _ | ⟨r, b⟩⟩
  · exact .inl (by simp [OriginState.placeReply, hs])
  · exact .inl (by simp [OriginState.placeReply, hs])
  · by_cases hr : q.hasReply = true
    · exact .inl (by simp [OriginState.placeReply, hs, hr])
    · exact .inr ⟨i, c, r, b, rfl, by simpa using hr, by simp [OriginState.placeReply, hs, hr]⟩

/-- The head of a queue leaves it: a notice, the order's own reply, or a BUSY answer (R156, R157). -/
theorem pop_notice {q : OriginState} {k : NoticeKind} {l : Byte} {b : List Byte} {rest : List Entry}
    (h : q.queue = .notice k l b :: rest) : q.pop = { q with queue := rest } := by
  simp [OriginState.pop, h, Entry.isOwnReply, Entry.isReply]

theorem pop_own {q : OriginState} {i c : Byte} {r : ResultCode} {b : List Byte} {rest : List Entry}
    (h : q.queue = .reply true i c r b :: rest) : q.pop = { q with queue := rest, slot := none } := by
  simp [OriginState.pop, h, Entry.isOwnReply]

theorem pop_busy {q : OriginState} {i c : Byte} {r : ResultCode} {b : List Byte} {rest : List Entry}
    (h : q.queue = .reply false i c r b :: rest) : q.pop = OriginState.placeReply { q with queue := rest } := by
  simp [OriginState.pop, h, Entry.isOwnReply, Entry.isReply]

/-- Answering without a RUNNING order places nothing (R161). -/
theorem answerAs_idle {item : PostItem} {o : Origin} {r : ResultCode} {b : List Byte} {s : State}
    (h : ∀ i c, (s.origin o).bind (·.slot) ≠ some ⟨i, c, none⟩) : answerAs item o r b s = s := by
  unfold answerAs
  split
  · exact absurd ‹_› (h _ _)
  · rfl

/-- Answering a RUNNING order (R155). -/
theorem answerAs_running {item : PostItem} {o : Origin} {r : ResultCode} {b : List Byte} {s : State} {i c : Byte}
    (h : (s.origin o).bind (·.slot) = some ⟨i, c, none⟩) :
    answerAs item o r b s = post o item (modOrigin o (fun q => { q with slot := some ⟨i, c, some (r, b)⟩ }) s) := by
  simp [answerAs, h]

/-! ### Blocks (R107, R114, R115) -/

/-- A block that a FIFO does not hold is not released from it. -/
theorem dropReference_absent {b : Nat} {l : List Block} (h : ∀ k ∈ l, k.number ≠ b) :
    dropReference b l = (l, false) := by
  induction l with
  | nil => rfl
  | cons k ks ih =>
    have hk := h k (by simp)
    simp [dropReference, hk, ih (fun x hx => h x (by simp [hx]))]

/-- All that one release can do to the FIFO that holds the block. -/
theorem dropReference_present {b : Nat} {before after : List Block} {k : Block} (hk : k.number = b)
    (h : ∀ x ∈ before, x.number ≠ b) :
    dropReference b (before ++ k :: after) =
      if k.refs ≤ 1 then (before ++ after, true) else (before ++ { k with refs := k.refs - 1 } :: after, false) := by
  induction before with
  | nil => by_cases hr : k.refs ≤ 1 <;> simp [dropReference, hk, hr]
  | cons x xs ih =>
    have hx := h x (by simp)
    have := ih (fun y hy => h y (by simp [hy]))
    by_cases hr : k.refs ≤ 1 <;> simp [dropReference, hx, this, hr]

/-- A release touches one stream's FIFO and the free list, and nothing of a FREE record. -/
theorem releaseBlock_free {st : StreamIx} {b : Nat} {s : State} (h : s.streams[st] = none) : releaseBlock st b s = s := by
  unfold releaseBlock
  split
  · rfl
  · simp_all

theorem releaseBlock_some {st : StreamIx} {b : Nat} {s : State} {r : Stream} (h : s.streams[st] = some r) :
    releaseBlock st b s = { s with
      streams := s.streams.set st (some { r with fifo := (dropReference b r.fifo).1 })
      store := if (dropReference b r.fifo).2 then { s.store with free := s.store.free ++ [b] } else s.store } := by
  unfold releaseBlock
  split
  · simp_all
  · rename_i r' h'
    obtain rfl : r = r' := by simpa [h] using h'
    rfl

/-! ### Fire lists (R150) -/

theorem insertFire_length (f : Stamp) (l : List Stamp) : (insertFire f l).length = l.length + 1 := by
  induction l with
  | nil => rfl
  | cons x xs ih => by_cases h : x.toNat ≤ f.toNat <;> simp [insertFire, h, ih]

theorem insertFire_perm (f : Stamp) (l : List Stamp) : List.Perm (insertFire f l) (f :: l) := by
  induction l with
  | nil => exact List.Perm.refl _
  | cons x xs ih =>
    by_cases h : x.toNat ≤ f.toNat
    · simpa [insertFire, h] using (ih.cons x).trans (List.Perm.swap f x xs)
    · simp [insertFire, h]

/-- A list in increasing fire time stays so. -/
theorem insertFire_sorted {f : Stamp} {l : List Stamp} (h : l.Pairwise (fun a b => a.toNat ≤ b.toNat)) :
    (insertFire f l).Pairwise (fun a b => a.toNat ≤ b.toNat) := by
  induction l with
  | nil => simp [insertFire]
  | cons x xs ih =>
    obtain ⟨hx, hs⟩ := List.pairwise_cons.mp h
    by_cases hf : x.toNat ≤ f.toNat
    · simp only [insertFire, hf, if_true, List.pairwise_cons]
      refine ⟨fun y hy => ?_, ih hs⟩
      rcases List.mem_cons.mp ((insertFire_perm f xs).mem_iff.mp hy) with rfl | hm
      · exact hf
      · exact hx y hm
    · simp only [insertFire, hf, if_false, List.pairwise_cons]
      refine ⟨fun y hy => ?_, hx, hs⟩
      rcases List.mem_cons.mp hy with rfl | hm
      · omega
      · exact (show f.toNat ≤ x.toNat by omega).trans (hx y hm)

/-! ### The turn of sample service (R135) -/

/-- The choice after a pointer is one of the taps given. -/
theorem afterPointer_mem {n : Nat} {ts : List TapIx} {t : TapIx} (h : afterPointer n ts = some t) : t ∈ ts := by
  unfold afterPointer at h
  split at h
  · cases h; exact List.mem_of_find?_eq_some ‹_›
  · exact List.mem_of_mem_head? h

/-- There is no choice only among no taps. -/
theorem afterPointer_none {n : Nat} {ts : List TapIx} : afterPointer n ts = none ↔ ts = [] := by
  unfold afterPointer
  split
  · rename_i t h
    simp only [reduceCtorEq, false_iff]
    rintro rfl
    simp at h
  · simp

/-! ### Bytes (R173) -/

@[simp] theorem be_length (n x : Nat) : (be n x).length = n := by
  induction n with
  | zero => rfl
  | succ n ih => simp [be, ih]

theorem beNat_append (a b : List Byte) : beNat (a ++ b) = beNat a * 256 ^ b.length + beNat b := by
  have key : ∀ (l : List Byte) (x : Nat),
      l.foldl (fun acc b => acc * 256 + b.toNat) x = x * 256 ^ l.length + beNat l := by
    intro l
    induction l with
    | nil => intro x; simp [beNat]
    | cons c cs ih =>
      intro x
      simp only [List.foldl_cons, beNat, List.length_cons]
      rw [ih, ih]
      ring
  unfold beNat
  rw [List.foldl_append]
  exact key b _

/-- A number is read back from its bytes. -/
theorem beNat_be (n x : Nat) : beNat (be n x) = x % 256 ^ n := by
  induction n with
  | zero => simp [be, beNat, Nat.mod_one]
  | succ n ih =>
    have h1 : be (n + 1) x = [BitVec.ofNat 8 (x / 256 ^ n)] ++ be n x := rfl
    rw [h1, beNat_append, ih, be_length]
    have h2 : beNat [BitVec.ofNat 8 (x / 256 ^ n)] = x / 256 ^ n % 256 := by simp [beNat]
    rw [h2, pow_succ, Nat.mod_mul]
    ring

end Sys2Proof.Machine
end

