-- ==== Sys2Proof/Laws/Terms.lean ====
section
/-! SUPPORT. The operations of the link, the transmitters and the store in the terms that statements use. -/

namespace Sys2Proof.Machine

/-! ### The link (R1, R8, R18) -/

theorem recordReceipt_eq (p : PortIx) (s : State) :
    recordReceipt p s = modPort p (fun x => { x with lastReceived := s.now }) s := rfl

theorem restartSilence_eq (p : PortIx) (s : State) :
    restartSilence p s = modPort p (fun x => { x with silenceSince := s.clock.cycle }) s := rfl

theorem samplePresent_eq (p : PortIx) (level : Bool) (held : Nat) (s : State) :
    samplePresent p level held s =
      modPort p (fun x => { x with pin := level, pinSince := max x.pinSince (s.clock.cycle - held) }) s := rfl

/-- A presence filter that is not due leaves everything (R18). -/
theorem completeFilter_of_not_due {p : PortIx} {s : State} (h : s.filterDue p = false) : completeFilter p s = s := by
  simp [completeFilter, h]

/-! ### The transmitters (R6) -/

theorem startFlight_eq (p : PortIx) (k : FlightKind) (bytes : List Byte) (second : Bool) (s : State) :
    startFlight p k bytes (s.slotNumber second) s = launched p second k bytes s := rfl

theorem endFlight_eq (p : PortIx) (s : State) :
    endFlight p s = modEgress p (fun e => { e with flight := none, lastStop := e.ended }) s := rfl

/-! ### Notices (R158) -/

@[simp] theorem told_nil (q : OriginState) : q.told [] = q := rfl

@[simp] theorem told_cons (k : NoticeKind) (b : List Byte) (l : Notices) (q : OriginState) :
    q.told ((k, b) :: l) = (q.placeNotice k b).told l := rfl

theorem told_append (l m : Notices) (q : OriginState) : q.told (l ++ m) = (q.told l).told m := List.foldl_append

/-! ### Releases (R107, R114, R115) -/

/-- A FIFO that holds none of the blocks is left. -/
theorem released_absent {bs : List Nat} {l : List Block} (h : ∀ k ∈ l, k.number ∉ bs) : released bs l = l := by
  induction l with
  | nil => rfl
  | cons k ks ih =>
    have hk := h k (by simp)
    have := ih (fun x hx => h x (by simp [hx]))
    simp only [released] at this
    simp [released, hk, this]

/-- What one release leaves of a FIFO whose blocks are distinct, and whether the block leaves it. -/
theorem dropReference_released {b : Nat} {l : List Block} (h : (l.map (·.number)).Nodup) :
    dropReference b l = (released [b] l, l.any (fun k => k.number == b && decide (k.refs ≤ 1))) := by
  induction l with
  | nil => rfl
  | cons k ks ih =>
    simp only [List.map_cons, List.nodup_cons, List.mem_map, not_exists, not_and] at h
    by_cases hk : k.number = b
    · have hn : ∀ x ∈ ks, x.number ∉ [b] := fun x hx => by
        have := h.1 x hx; simp only [List.mem_singleton]; rw [← hk]; exact this
      have hr : released [b] ks = ks := released_absent hn
      have ha : ks.any (fun k => k.number == b && decide (k.refs ≤ 1)) = false := by
        simp only [List.any_eq_false, Bool.and_eq_true, beq_iff_eq, decide_eq_true_eq, not_and]
        intro x hx hb; exact absurd hb (by simpa using hn x hx)
      simp only [released, List.mem_singleton] at hr
      by_cases h1 : k.refs ≤ 1 <;> simp [dropReference, released, hk, h1, ha, hr]
    · simp [dropReference, hk, ih h.2, released]

theorem released_sublist (bs : List Nat) (l : List Block) :
    ((released bs l).map (·.number)).Sublist (l.map (·.number)) := by
  induction l with
  | nil => simp [released]
  | cons k ks ih =>
    simp only [released, List.filterMap_cons] at ih ⊢
    by_cases hm : k.number ∈ bs
    · by_cases h1 : k.refs ≤ 1
      · simpa [hm, h1] using ih.cons _
      · simpa [hm, h1] using ih
    · simpa [hm] using ih

theorem released_cons {b : Nat} {bs : List Nat} (h : b ∉ bs) (l : List Block) :
    released (b :: bs) l = released bs (released [b] l) := by
  simp only [released, List.filterMap_filterMap]
  refine List.filterMap_congr fun k _ => ?_
  by_cases hb : k.number = b
  · by_cases h1 : k.refs ≤ 1 <;> simp [hb, h1, h]
  · simp [hb]

theorem freed_cons {b : Nat} {bs : List Nat} (h : b ∉ bs) (l : List Block) :
    freed (b :: bs) l = freed [b] l ++ freed bs (released [b] l) := by
  have key : ∀ c ∈ bs, (released [b] l).any (fun k => k.number == c && decide (k.refs ≤ 1)) =
      l.any (fun k => k.number == c && decide (k.refs ≤ 1)) := by
    intro c hc
    have hcb : c ≠ b := fun e => h (e ▸ hc)
    induction l with
    | nil => rfl
    | cons k ks ih =>
      simp only [released, List.filterMap_cons, List.mem_singleton] at ih ⊢
      by_cases hb : k.number = b
      · by_cases h1 : k.refs ≤ 1 <;> simp only [hb, h1, if_true, if_false, List.any_cons, ih] <;> simp [Ne.symm hcb]
      · simp only [hb, if_false, List.any_cons, ih]
  have hf : freed bs (released [b] l) = freed bs l := List.filter_congr key
  rw [hf]
  simp only [freed, List.filter_cons, List.filter_nil]
  split <;> simp

/-- All that the release of a list of references does: to one stream's FIFO and to the free list. -/
theorem releaseBlocks_some {st : StreamIx} {bs : List Nat} : ∀ {s : State} {r : Stream}, s.streams[st] = some r →
    (r.fifo.map (·.number)).Nodup → bs.Nodup →
    releaseBlocks st bs s = { s with
      streams := s.streams.set st (some { r with fifo := released bs r.fifo })
      store := { s.store with free := s.store.free ++ freed bs r.fifo } } := by
  induction bs with
  | nil =>
    intro s r h _ _
    have h1 : s.streams.set st (some r) = s.streams := by
      refine Vector.ext fun i hi => ?_
      simp only [Vector.getElem_set]
      split
      · subst_vars; exact h.symm
      · rfl
    simp [releaseBlocks, freed, released_absent, h1]
  | cons b bs ih =>
    intro s r h hn hb
    obtain ⟨hb1, hb2⟩ := List.nodup_cons.mp hb
    have hd := dropReference_released (b := b) hn
    have h2 := releaseBlock_some (b := b) h
    rw [hd] at h2
    simp only [releaseBlocks, each_cons] at ih ⊢
    rw [h2, ih (r := { r with fifo := released [b] r.fifo }) (by simp)
      (hn.sublist (released_sublist [b] r.fifo)) hb2]
    rw [released_cons hb1, freed_cons hb1]
    by_cases ha : r.fifo.any (fun k => k.number == b && decide (k.refs ≤ 1)) = true <;>
      simp [ha, freed, Vector.set_set]

/-! ### Pulses and the order of posts (R151, R158) -/

theorem endPulse_ended {i : PinIx} {s : State} {q : Pulse} (hq : (s.pins[i]).pulse = some q)
    (h : q.stop.toNat ≤ s.now.toNat) :
    endPulse i s = modPin i (fun x => { x.mergeInside q with pulse := none }) s := by
  unfold endPulse; rw [hq]; exact if_pos h

theorem endPulse_early {i : PinIx} {s : State} {q : Pulse} (hq : (s.pins[i]).pulse = some q)
    (h : s.now.toNat < q.stop.toNat) : endPulse i s = s := by
  unfold endPulse; rw [hq]; exact if_neg (Nat.not_le.mpr h)

/-- With nothing to merge, a pulse that has ended goes alone. -/
theorem mergeInside_of_head {q : Pulse} {x : Pin}
    (h : ∀ g, x.fires.head? = some g → q.stop.toNat ≤ (fireMoment g).toNat) : x.mergeInside q = x := by
  have hz : satAdd x.counters.mergedFires 0 = x.counters.mergedFires := by
    have hm : min x.counters.mergedFires.toNat 65535 = x.counters.mergedFires.toNat :=
      Nat.min_eq_left (Nat.lt_succ_iff.mp x.counters.mergedFires.isLt)
    simp [satAdd, hm]
  unfold Pin.mergeInside
  rcases hf : x.fires with _ | ⟨g, rest⟩
  · cases x; subst hf; simp at hz ⊢; simp [hz]
  · have hg : ¬ (fireMoment g).toNat < q.stop.toNat := Nat.not_lt.mpr (h g (by rw [hf]; rfl))
    cases x; subst hf; simp at hz; simp [hg, hz]

/-- Where a drain posts all that an origin is sent, its DONE stands with its STREAM ENDED. -/
theorem rank_drainReply {posts : List Post} {o : Origin} (h : ∀ y ∈ posts, y.dest = o → y.item.isOfDrain = true) :
    Post.rank posts ⟨o, .drainReply⟩ = NoticeKind.rank .streamEnded := by
  refine if_pos (List.all_eq_true.mpr fun y hy => ?_)
  by_cases hd : y.dest = o
  · simp [h y hy hd]
  · simp [bne_iff_ne.mpr hd]

end Sys2Proof.Machine
end

