-- ==== Sys2Proof/Tests/Slice0.lean ====
section
/-! SUPPORT. Tests: the refused forms of WellFormed, worked cases of the spec, and for every statement that has hypotheses
a state and operands that meet them. -/

namespace Sys2Proof.Tests

set_option Elab.async false

open Sys2Proof.Machine

/-! ### States to start from -/

/-- Port 3 seated in a port state, with what that state holds. -/
def seat (st : PortState) (s : State) : State :=
  { s with
    ports := s.ports.set 3 { Port.initial true with
      state := st
      frame := if st.isRegistered then some ⟨7340101, 5, true⟩ else none
      epoch := if st = .admitted then some 0 else none
      joinDeadline := if st = .joining then some 0 else none }
    delays := s.delays.set 3 ⟨0, none, none, if st = .training then some ⟨1, []⟩ else none,
      if st.isTrained then some ⟨14229, .prompt, 15, 0⟩ else none⟩
    origins := s.origins.set 3 (if st.isTrained then some .initial else none) }

/-- The hub after reset with port 3 in a state. -/
def hub (st : PortState) : State := seat st State.reset

/-- A block of stream 9, and the stream, FLOWING from port 3. -/
def block : Block := ⟨0, 999, 2, 1000000, [1, 2, 3, 4], false, false, 1⟩

def stream9 : Stream where
  state := .flowing
  producer := some 3
  frameId := 7340101
  tag := 2
  width := 2
  spp := 2
  period := 32000
  depth := 32
  priority := 1
  startBeat := 0
  baseline := some ⟨1000, 1000000, 2⟩
  resumeMark := false
  eased := false
  fifo := [block]
  taps := [5]
  counters := StreamCounters.zero
  drainDeadline := none
  orphanDeadline := none
  closeBy := none

/-- Tap 5 of port 3 on stream 9. -/
def tap5 : Tap := ⟨9, 3, 1, ⟨none, none, 1, false, 32⟩, some 0, [0], none, 0, 0, none⟩

/-- A hub with port 3 in a state, a stream 9 and a tap 5. -/
def flowOn (st : PortState) (r : Stream) (x : Tap) : State :=
  { hub st with
    streams := State.reset.streams.set 9 (some r)
    taps := State.reset.taps.set 5 (some x)
    store := { State.reset.store with free := (List.range 1024).tail } }

/-- Stream 9 with one block pending on tap 5. -/
def flow : State := flowOn .active stream9 tap5

/-- The hub at a count of cycles. -/
def atCycle (n : Nat) (s : State) : State := { s with clock := { s.clock with cycle := n } }

/-- What stands in a hub whose only stream is 9 and whose only tap is 5. -/
structure Only (s : State) (r : Stream) (x : Tap) : Prop where
  stream : ∀ a : StreamIx, s.streams[a] = if a = 9 then some r else none
  tap : ∀ t : TapIx, s.taps[t] = if t = 5 then some x else none

theorem Only.streamIs {s : State} {r : Stream} {x : Tap} (h : Only s r x) {a : StreamIx} {y : Stream}
    (hy : s.streams[a] = some y) : a = 9 ∧ y = r := by
  rw [h.stream] at hy
  split at hy
  · exact ⟨‹_›, (Option.some.inj hy).symm⟩
  · cases hy

theorem Only.tapIs {s : State} {r : Stream} {x : Tap} (h : Only s r x) {t : TapIx} {y : Tap}
    (hy : s.taps[t] = some y) : t = 5 ∧ y = x := by
  rw [h.tap] at hy
  split at hy
  · exact ⟨‹_›, (Option.some.inj hy).symm⟩
  · cases hy

/-- The law of the blocks, where tap 5 is on stream 9. -/
theorem Only.blocks {s : State} {r : Stream} {x : Tap} (h : Only s r x)
    (hx : x.stream = 9 ∧ r.taps = [5] ∧ (r.state = .draining → r.drainDeadline ≠ none))
    (hk : ∀ k ∈ r.fifo, 1 ≤ k.refs ∧ k.refs = s.holders 9 k.number)
    (hp : x.pending.Nodup ∧ ∀ b ∈ x.pending, ∃ k ∈ r.fifo, k.number = b)
    (he : ∀ p : PortIx, ((s.egress[p]).flight).all (fun y => match y.kind with
      | .samples st b _ => st == 9 && r.fifo.any (fun k => k.number == b)
      | _ => true) = true) : s.BlockLaw := by
  refine fun _ => ⟨fun st y hy => ?_, fun st y hy k hm => ?_, fun t y hy => ?_, fun p st b t bytes start hf => ?_⟩
  · obtain ⟨rfl, rfl⟩ := h.streamIs hy
    refine ⟨by simp [hx.2.1], fun t => ?_, fun h1 h2 => absurd h2 (hx.2.2 h1)⟩
    rw [hx.2.1, List.mem_singleton]
    constructor
    · rintro rfl; exact ⟨x, by simpa using h.tap 5, hx.1⟩
    · rintro ⟨y, hy, -⟩; exact (h.tapIs hy).1
  · obtain ⟨rfl, rfl⟩ := h.streamIs hy; exact hk k hm
  · obtain ⟨-, rfl⟩ := h.tapIs hy
    have hst : ∀ a : StreamIx, a = 9 → s.streams[a] = some r := fun a ha => by rw [h.stream, if_pos ha]
    exact ⟨hp.1, r, hst _ hx.1, hp.2⟩
  · have hep := he p
    rw [hf] at hep
    simp only [Option.all_some, Bool.and_eq_true, beq_iff_eq, List.any_eq_true] at hep
    obtain ⟨rfl, k, hk, hb⟩ := hep
    exact ⟨r, by simpa using h.stream 9, k, hk, hb⟩

/-- The hubs that `flowOn` gives hold stream 9 and tap 5 alone. -/
theorem only_flowOn (st : PortState) (r : Stream) (x : Tap) : Only (flowOn st r x) r x := by
  have hs : ∀ a : StreamIx, State.reset.streams[a] = none := by decide +kernel
  have ht : ∀ a : TapIx, State.reset.taps[a] = none := by decide +kernel
  refine ⟨fun a => ?_, fun a => ?_⟩
  · by_cases h : a = 9
    · subst h; simp [flowOn]
    · have h9 : (9 : Nat) ≠ a.val := fun e => h (Fin.ext e.symm)
      have := hs a
      simp only [Fin.getElem_fin] at this
      rw [if_neg h]
      simpa [flowOn, Vector.getElem_set, h9] using this
  · by_cases h : a = 5
    · subst h; simp [flowOn]
    · have h5 : (5 : Nat) ≠ a.val := fun e => h (Fin.ext e.symm)
      have := ht a
      simp only [Fin.getElem_fin] at this
      rw [if_neg h]
      simpa [flowOn, Vector.getElem_set, h5] using this

/-- A hub that changes neither table still holds them alone. -/
theorem Only.keeps {s t : State} {r : Stream} {x : Tap} (h : Only s r x) (hs : t.streams = s.streams)
    (ht : t.taps = s.taps) : Only t r x :=
  ⟨fun a => by rw [← h.stream a]; simp [hs], fun a => by rw [← h.tap a]; simp [ht]⟩

/-! ### WellFormed refuses -/

theorem test_wellFormed_takes_the_longest_order :
    (Instr.setupRead .service 0 (List.replicate 32 0) 0).wellFormed = true := by decide

theorem test_wellFormed_refuses_33_argument_bytes :
    (Instr.setupRead .service 0 (List.replicate 33 0) 0).wellFormed = false := by decide

theorem test_wellFormed_refuses_257_payload_bytes :
    (Instr.samplesInbound 0 0 0 0 0 (List.replicate 257 0)).wellFormed = false := by decide +kernel

theorem test_wellFormed_refuses_an_empty_send : (Instr.send [] 0).wellFormed = false := by decide

/-! ### Worked cases of the spec -/

/-- Table 10: the admission epochs. -/
theorem test_admission_epochs :
    [1000003, 1000012, 1000013, 4294967290].map (fun b => (admissionEpoch b).toNat) = [1000016, 1000016, 1000032, 0] := by
  decide +kernel

/-- The worked training case: round 1 gives 14,229, and the seven valid samples give their estimate. -/
theorem test_training_case :
    measure 30500 2048 6 = .valid 14229 ∧ trimmedMean [14229, 14231, 14228, 14230, 14262, 14229, 14227] = 14229 := by
  decide +kernel

/-- The worked steady case: STEADY at the 16th acceptance, +64 clamped to +8. -/
theorem test_steady_case :
    (Estimate.accept 16 14236 ⟨14229, .prompt, 15, 0⟩) = ⟨14236, .steady, 16, 0⟩ ∧
      Estimate.tracked 8 14300 ⟨14236, .steady, 16, 0⟩ = 14244 := by decide +kernel

/-- The worked comparisons: trim and pull, row by row. -/
theorem test_steer_rows :
    [(300, 37), (309, -3), (309, 300), (325, -5000), (309, 32767), (2040, 100)].map
        (fun x => let t := steer x.2 { State.reset.tb with trim := x.1 }; (t.trim, t.pull))
      = [(309, 18), (309, -1), (325, 150), (309, -1024), (325, 1024), (2047, 50)] := by decide +kernel

/-- The gap of 3 from 2002 under decimation 4 and phase 0 is charged once, for 2004. -/
theorem test_gap_charge : gapCharge 2002 3 4 0 = 1 ∧ gapCharge 2002 3 1 0 = 3 := by decide

/-- Stamps of the worked ingest: D = 0, 3000 within, 20,000 beyond the tolerance of 16,000. -/
theorem test_ingest_stamps :
    let r : Stream := { stream9 with spp := 64 }
    r.slips ⟨1001, 1000000, 64⟩ 0 3048000 = false ∧ r.slips ⟨1002, 3048000, 64⟩ 2 9195000 = false ∧
      r.slips ⟨1005, 9195000, 64⟩ 0 11263000 = true := by decide +kernel

theorem test_reversed_samples : reverseSamples 3 6 [1, 2, 3, 4, 5, 6] = [3, 2, 1, 6, 5, 4] := by decide

/-- The published check value of "123456789" for the generator x^16 + x^12 + x^5 + 1 started at all ones. -/
theorem test_crc : crc16 [0x31, 0x32, 0x33, 0x34, 0x35, 0x36, 0x37, 0x38, 0x39] = 0x29B1 := by decide +kernel

theorem test_an_erased_store_powers_on_as_reset : powerOn 0 0 State.reset = State.reset := by decide +kernel

theorem test_an_idle_cycle_adds_256_subticks :
    Runs (step State.reset) (fun t => t.clock = ⟨256, 0, 1, 0, 16777216⟩) := ⟨_, rfl, by decide +kernel⟩

/-- Ports present at power-on listen, and the queue's front command runs. -/
theorem test_power_on_by_the_queue :
    Runs (step { State.reset with pending := [.powerOn 0x008 0, .beatDue] }) (fun t =>
      (t.ports[(3 : PortIx)]).state = .listening ∧ (t.ports[(2 : PortIx)]).state = .vacant ∧ t.pending = [.beatDue]) :=
  ⟨_, rfl, by decide +kernel⟩

/-- A JOIN on a JOINING port: ADMITTED with the epoch 16 after beat 0. -/
theorem test_join_admits :
    Runs (exec (.join (.port 3) 1 [0, 0x70, 0, 5, 7, 1] 0) (hub .joining)) (fun t =>
      (t.ports[(3 : PortIx)]).state = .admitted ∧ (t.ports[(3 : PortIx)]).epoch = some 16 ∧
        t.frameId 3 = some 0x00700005) := ⟨_, rfl, by decide +kernel⟩

/-- The pool under pressure, event 7: a stream at its depth limit drops, and its tap is charged. -/
theorem test_depth_drop :
    Runs (exec (.samplesInbound 3 2 1000 2 1064000 [1, 2, 3, 4])
      (flowOn .active { stream9 with depth := 1 } tap5)) (fun t =>
      t.store.depthDrops = 1 ∧ (t.taps[(5 : TapIx)]).map (·.owed) = some 1) := ⟨_, rfl, by decide +kernel⟩

/-! ### Witnesses: clock, power, rest -/

theorem witness_RackTime :
    (State.reset.pending = [] ∧ State.reset.atRest = false) ∧
    ((rest State.reset).pending = [] ∧ (rest State.reset).atRest = true) ∧
    (∃ t, exec .beatDue State.reset = .next t) ∧ State.reset.ClockLaw ∧ ∃ t, step State.reset = .next t :=
  ⟨by decide +kernel, by decide +kernel, ⟨_, rfl⟩, by unfold State.ClockLaw; decide +kernel, _, rfl⟩

/-- The increment that a cycle adds was fixed at its start: a trim that changes within the cycle acts from the next on. -/
theorem test_trim_acts_from_the_next_cycle :
    Runs (step (modTb (fun t => { t with trim := -1 }) State.reset)) (fun t =>
      t.clock.rackTime = 256 ∧ t.clock.residue = 0 ∧ t.clock.increment = 16777215) := ⟨_, rfl, by decide +kernel⟩

/-- A setup word 16 with pin 0 on line 9 as IN with both edges, pin 1 OUT with the pulse low, pin 2 with a reserved code. -/
def pinWords : Vector (BitVec 32) 24 := (Vector.replicate 24 0xFFFFFFFF).set 16 0x00060D4B

theorem witness_SetupLoadsInRange :
    (pinWords[(0 : Fin 24)] = 0xFFFFFFFF ∧ pinWords[(16 : Fin 24)] ≠ 0xFFFFFFFF ∧
      pinWords[(16 : Fin 24)].toNat / 256 ^ 0 % 8 = 3 ∧ pinWords[(16 : Fin 24)].toNat / 256 ^ 1 % 8 = 5 ∧
      pinWords[(16 : Fin 24)].toNat / 256 ^ 2 % 8 = 6) ∧
    (loadPin pinWords 0 true).mode = .input ∧ (loadPin pinWords 0 true).polarity = 2 ∧ (loadPin pinWords 0 true).line = 9 ∧
    (loadPin pinWords 1 true).mode = .output ∧ (loadPin pinWords 1 true).polarity = 1 ∧
    (loadPin pinWords 2 true).mode = .off := by decide +kernel

theorem witness_RestUntilPowerOn :
    (rest State.reset).atRest = true ∧ (∀ present wires, Instr.beatDue ≠ .powerOn present wires) ∧
      Instr.beatDue ≠ .resetnLow := ⟨by decide +kernel, (by intro _ _ h; cases h), by decide⟩

/-! ### Witnesses: the laws that every step keeps -/

/-- A command waits on the hub with a flowing stream. -/
def waiting : State := { flow with pending := [.receivedSymbol 3 .fill 0] }

theorem law_of_origins (s : State) (h : ∀ p : PortIx, (s.origins[p]).all (fun q => decide (q.notices ≤ 7 ∧
    q.queue.countP Entry.isReply ≤ 1 ∧ (q.queue.any Entry.isOwnReply = true → (q.slot.bind (·.answer)).isSome))) = true)
    (hs : s.service.origin.Law) : s.NoticeLaw := by
  rintro (p | _) q hq
  · have := h p
    rw [show s.origins[p] = some q from hq] at this
    simpa [OriginState.Law, Config.noticePlaces] using this
  · cases hq
    exact hs

/-- Each block stands in one place where stream 9 holds block 0. -/
theorem pool_of_flow : flow.PoolLaw := by unfold State.PoolLaw; decide +kernel

theorem blocks_of_flow : flow.BlockLaw :=
  (only_flowOn .active stream9 tap5).blocks (by decide +kernel) (by decide +kernel) (by decide +kernel) (by decide +kernel)

theorem witness_StepKeepsPool : waiting.PoolLaw ∧ waiting.BlockLaw ∧ ∃ t, step waiting = .next t :=
  ⟨pool_of_flow, blocks_of_flow, _, rfl⟩

theorem witness_StepKeepsNotices : waiting.NoticeLaw ∧ ∃ t, step waiting = .next t :=
  ⟨law_of_origins _ (by decide +kernel) (by unfold OriginState.Law; decide +kernel), _, rfl⟩

theorem witness_StepKeepsTriggers : waiting.TriggerLaw ∧ ∃ t, step waiting = .next t :=
  ⟨by unfold State.TriggerLaw Pin.Law; decide +kernel, _, rfl⟩

theorem law_of_ports : waiting.PortLaw := by
  unfold State.PortLaw State.PortLawAt; decide +kernel

theorem witness_StepKeepsPorts : waiting.PortLaw ∧ ∃ t, step waiting = .next t := ⟨law_of_ports, _, rfl⟩

theorem tap_of_waiting (t : TapIx) (x : Tap) (h : waiting.taps[t] = some x) : t = 5 ∧ x = tap5 := by
  have all : ∀ t : TapIx, waiting.taps[t] = if t = 5 then some tap5 else none := by decide +kernel
  rw [all] at h
  split at h
  · exact ⟨‹_›, (Option.some.inj h).symm⟩
  · cases h

theorem stream_of_waiting (a : StreamIx) (r : Stream) (h : waiting.streams[a] = some r) : a = 9 ∧ r = stream9 := by
  have all : ∀ a : StreamIx, waiting.streams[a] = if a = 9 then some stream9 else none := by decide +kernel
  rw [all] at h
  split at h
  · exact ⟨‹_›, (Option.some.inj h).symm⟩
  · cases h

theorem witness_StepKeepsTaps : waiting.PortLaw ∧ waiting.TapLaw ∧ ∃ t, step waiting = .next t := by
  refine ⟨law_of_ports, ⟨fun t x h => ?_, fun t u x y h h' _ _ => ?_, fun st r h => ?_⟩, _, rfl⟩
  · obtain ⟨rfl, rfl⟩ := tap_of_waiting t x h; decide +kernel
  · rw [(tap_of_waiting t x h).1, (tap_of_waiting u y h').1]
  · obtain ⟨rfl, rfl⟩ := stream_of_waiting st r h; decide

theorem witness_StepKeepsStreams :
    (waiting.PortLaw ∧ waiting.StreamLaw ∧ ∃ t, step waiting = .next t) ∧
      waiting.RegistryLaw ∧ ∃ t, step waiting = .next t := by
  refine ⟨⟨law_of_ports, ⟨fun a b x y h h' _ _ => ?_, fun st r h => ?_⟩, _, rfl⟩, fun p q id h h' => ?_, _, rfl⟩
  · rw [(stream_of_waiting a x h).1, (stream_of_waiting b y h').1]
  · obtain ⟨rfl, rfl⟩ := stream_of_waiting st r h
    exact ⟨show stream9.isLive = true ∧ _ from by decide +kernel, by decide +kernel⟩
  · have only : ∀ p : PortIx, waiting.frameId p = if p = 3 then some 7340101 else none := by decide +kernel
    rw [only] at h h'
    split at h
    · split at h'
      · rw [‹p = 3›, ‹q = 3›]
      · cases h'
    · cases h

theorem witness_StepKeepsReference :
    waiting.PortLaw ∧ waiting.RestartLaw ∧ waiting.ReferenceLaw ∧ ∃ t, step waiting = .next t :=
  ⟨law_of_ports, (fun h => by cases h), ⟨show waiting.tb.selected = none ∧ waiting.best = none by decide +kernel, by decide +kernel⟩, _, rfl⟩

/-- A hub restart that waits for a parcel in flight. -/
def restartingHub : State :=
  { State.reset with
    restarting := true
    service := ⟨⟨some ⟨9, 0x1A, none⟩, [], 0, false⟩, 0, .idle⟩
    egress := State.reset.egress.set 3 ⟨some ⟨.farewell, [1], 0⟩, 0, none, 127⟩ }

theorem no_stream_restarting (st : StreamIx) (r : Stream) (h : restartingHub.streams[st] = some r) : r.closeBy = none := by
  have all : ∀ st : StreamIx, restartingHub.streams[st] = none := by decide +kernel
  rw [all] at h
  cases h

theorem witness_StepKeepsRestart :
    restartingHub.restarting = true ∧ restartingHub.NoticeLaw ∧ restartingHub.PortLaw ∧ restartingHub.RestartLaw ∧
      ∃ t, step restartingHub = .next t :=
  ⟨rfl, law_of_origins _ (by decide +kernel) (by unfold OriginState.Law; decide +kernel),
    by unfold State.PortLaw State.PortLawAt; decide +kernel,
    fun _ => ⟨by decide +kernel, no_stream_restarting, ⟨9, by decide +kernel⟩, by decide +kernel⟩,
    _, rfl⟩

/-- A setup write in progress that is due. -/
def writing : State := { State.reset with
  setup := ⟨Vector.replicate 24 0xFFFFFFFF, some ⟨some (5, 0x1234), .service, 0⟩⟩, pending := [.setupWriteCompletion] }

theorem witness_StepKeepsSetup : writing.SetupLaw ∧ ∃ t, step writing = .next t :=
  ⟨fun w v h => by cases h; decide +kernel, _, rfl⟩

theorem witness_StepKeepsSettings : writing.settings.Law ∧ ∃ t, step writing = .next t :=
  ⟨by unfold Settings.Law; decide +kernel, _, rfl⟩

/-! ### Witnesses: the link -/

/-- Port 3 with a framer and an error score. -/
def framed (mode : FramerMode) (buffer : List Byte) (score : Nat) : State :=
  modPort 3 (fun x => { x with framer := ⟨mode, buffer⟩, score := score }) (hub .active)

theorem witness_ParcelsReadBack : (List.replicate 279 (0 : Byte)).length ≤ 279 ∧
    (List.replicate 32 (0 : Byte)).length ≤ 32 ∧ (List.replicate 256 (0 : Byte)).length ≤ 256 := by decide +kernel

theorem witness_FramerTakesSymbols :
    (let s := framed .inside (List.replicate 283 0) 0
     s.atRest = false ∧ (s.ports[(3 : PortIx)]).state.framerRuns = true ∧ s.noComparison 3 = true ∧
      framerNext (s.ports[(3 : PortIx)]).framer (.data 7) = some ⟨.inside, List.replicate 283 0 ++ [7]⟩) ∧
    (let s := framed .inside (List.replicate 284 0) 247
     s.atRest = false ∧ (s.ports[(3 : PortIx)]).state.framerRuns = true ∧ s.noComparison 3 = true ∧
      framerFails (s.ports[(3 : PortIx)]).framer (.data 7) = some (⟨.skip, []⟩, true) ∧
      (s.ports[(3 : PortIx)]).score + 8 < 256) ∧
    (let s := framed .inside (List.replicate 284 0) 248
     framerFails (s.ports[(3 : PortIx)]).framer (.data 7) = some (⟨.skip, []⟩, true) ∧
      256 ≤ (s.ports[(3 : PortIx)]).score + 8) := by decide +kernel

/-- What the TAIL of a good parcel needs, for the parcel's bytes. -/
def collected (bytes : List Byte) : Bool :=
  let s := framed .inside bytes 0
  !s.atRest && (s.ports[(3 : PortIx)]).state.framerRuns && !s.isReference (.port 3) && s.noComparison 3
    && (s.ports[(3 : PortIx)]).framer.mode == .inside && (s.ports[(3 : PortIx)]).framer.buffer == bytes
    && decide (5 ≤ bytes.length) && checkPasses bytes

theorem witness_TailJudgesParcel :
    (collected (parcel 0x41 [1, 0x15]) = true ∧
      Inbound.ofBytes (parcel 0x41 [1, 0x15]) = some (.order 1 OrderCode.readStore.byte [])) ∧
    (collected (parcel 0x21 [2, 0, 5, 0, 1, 0, 0, 0, 0, 0, 0, 0, 9]) = true ∧
      Inbound.ofBytes (parcel 0x21 [2, 0, 5, 0, 1, 0, 0, 0, 0, 0, 0, 0, 9]) = some (.samples 2 5 1 9 [])) ∧
    (collected (parcel 0x31 [31, 0, 0, 0, 0, 0, 0, 1, 0]) = true ∧
      Inbound.ofBytes (parcel 0x31 [31, 0, 0, 0, 0, 0, 0, 1, 0]) = some (.trigger 31 256)) ∧
    (collected (parcel 0x13 [7, 0, 1, 0]) = true ∧ Inbound.ofBytes (parcel 0x13 [7, 0, 1, 0]) = some (.echoBack 7 256)) ∧
    (collected (parcel 0x13 []) = true ∧ Inbound.ofBytes (parcel 0x13 []) = none) ∧
    (collected (parcel 0x11 [1]) = true ∧ Inbound.ofBytes (parcel 0x11 [1]) = some .hubOnly) ∧
    (collected (parcel 0x41 [1, 0x1B]) = true ∧ Inbound.ofBytes (parcel 0x41 [1, 0x1B]) = some (.order 1 0x1B []) ∧
      (0x1A < (0x1B : Byte).toNat) ∧ (framed .inside [] 0).inService = true ∧
      (framed .inside [] 0).origins[(3 : PortIx)] = some .initial ∧ OriginState.initial.slot = none ∧
      OriginState.initial.hasReply = false) ∧
    (let s := modTb (fun t => { t with edges := 1998, state := .locked, selected := some (.port 3) }) (framed .inside [] 0)
     s.isReference (.port 3) = true ∧ s.noComparison 3 = true) := by decide +kernel

theorem witness_SymbolsOutsideService :
    (let s := hub .vacant
     s.inService = true ∧ (s.ports[(3 : PortIx)]).state = .vacant) ∧
    (let s := hub .listening
     s.inService = true ∧ (s.ports[(3 : PortIx)]).state = .listening ∧ Symbol.lead ≠ .fill) ∧
    (let s := modPort 3 (fun x => { x with fillRun := 62 }) (hub .listening)
     (s.ports[(3 : PortIx)]).state = .listening ∧ (s.ports[(3 : PortIx)]).fillRun + 1 < 64) ∧
    (let s := modPort 3 (fun x => { x with fillRun := 63 }) (hub .listening)
     (s.ports[(3 : PortIx)]).state = .listening ∧ 64 ≤ (s.ports[(3 : PortIx)]).fillRun + 1) := by decide +kernel

/-- An ACTIVE port 3 that is held. -/
def held : State := modPort 3 (fun x => { x with held := true, holdBeats := 2 }) (hub .active)

theorem witness_HoldAndGo :
    ((hub .active).atRest = false ∧ ((hub .active).ports[(3 : PortIx)]).state.framerRuns = true ∧
      (hub .active).noComparison 3 = true ∧ ((hub .active).ports[(3 : PortIx)]).state = .active ∧
      ((hub .active).ports[(3 : PortIx)]).held = false) ∧
    ((held.ports[(3 : PortIx)]).state = .active ∧ (held.ports[(3 : PortIx)]).held = true ∧ held.noComparison 3 = true) ∧
    (((hub .leaving).ports[(3 : PortIx)]).state.framerRuns = true ∧
      ((hub .leaving).ports[(3 : PortIx)]).state ≠ .active) := by decide +kernel

/-- Stream 9 with its tap 5 held by port 2: the loss of port 3 leaves an orphan whose consumer is told. -/
theorem witness_orphans_are_told :
    let s := atCycle 256 (flowOn .active stream9 { tap5 with consumer := 2 })
    s.BlockLaw ∧ s.produces 3 9 = true ∧ (∀ (v : TapIx) x, s.taps[v] = some x → x.consumer ≠ 3) ∧ s.restarting = false ∧
      s.tb.selected ≠ some (.port 2) ∧ 256 ≤ s.silenceOf 3 ∧ (s.ports[(3 : PortIx)]).state = .active := by
  have h : Only (atCycle 256 (flowOn .active stream9 { tap5 with consumer := 2 })) stream9 { tap5 with consumer := 2 } :=
    (only_flowOn .active stream9 { tap5 with consumer := 2 }).keeps rfl rfl
  refine ⟨h.blocks (by decide +kernel) (by decide +kernel) (by decide +kernel) (by decide +kernel), by decide +kernel,
    fun v x hx => ?_, by decide +kernel, by decide +kernel, by decide +kernel, by decide +kernel⟩
  obtain ⟨-, rfl⟩ := h.tapIs hx; decide

theorem witness_Silence :
    (atCycle 255 (hub .active)).silenceOf 3 < 256 ∧
    (256 ≤ (atCycle 256 (hub .listening)).silenceOf 3 ∧
      ((atCycle 256 (hub .listening)).ports[(3 : PortIx)]).state = .listening) ∧
    256 ≤ (atCycle 256 (hub .active)).silenceOf 3 ∧
      ((atCycle 256 (hub .active)).ports[(3 : PortIx)]).state.framerRuns = true := by decide +kernel

/-- Port 3 in a state at cycle 1024, with its filtered presence, where the pin has shown the other level since cycle 0. -/
def filtering (st : PortState) (presence : Bool) : State :=
  atCycle 1024 (modPort 3 (fun x => { x with presence := presence, pin := !presence }) (hub st))

theorem witness_PresenceChange :
    (let s := filtering .vacant false
     s.inService = true ∧ 1024 ≤ s.clock.cycle - max (s.ports[(3 : PortIx)]).pinSince (s.clock.cycle - 1024) ∧
      s.clock.cycle - max (s.ports[(3 : PortIx)]).pinSince (s.clock.cycle - 1023) < 1024 ∧
      (s.ports[(3 : PortIx)]).presence = false ∧ (s.ports[(3 : PortIx)]).state = .vacant ∧
      s.settings.enable[(3 : PortIx)] = true) ∧
    (let s := modSettings (fun w => { w with enable := w.enable.set 3 false }) (filtering .vacant false)
     s.settings.enable[(3 : PortIx)] = false ∧ (s.ports[(3 : PortIx)]).presence = false) ∧
    (((filtering .vacant true).ports[(3 : PortIx)]).presence = true ∧
      ((filtering .vacant true).ports[(3 : PortIx)]).state = .vacant) ∧
    (((filtering .parked true).ports[(3 : PortIx)]).presence = true ∧
      ((filtering .parked true).ports[(3 : PortIx)]).state = .parked) ∧
    ((filtering .active true).ports[(3 : PortIx)]).presence = true ∧
      ((filtering .active true).ports[(3 : PortIx)]).state.framerRuns = true := by decide +kernel

/-- The cycle that completes a filter queues its command, at 1024 ticks and not at 1023. -/
theorem test_the_filter_completes_by_the_clock :
    Runs (step (atCycle 1023 (filtering .parked true))) (fun t => t.pending.head? = some (.presenceChange 3 false 1024)) ∧
    Runs (step (atCycle 1022 (filtering .parked true))) (fun t => .presenceChange 3 false 1023 ∉ t.pending) :=
  ⟨⟨_, rfl, by decide +kernel⟩, _, rfl, by decide +kernel⟩

/-! ### Witnesses: the transmit side -/

/-- What each kind of waiting item adds to an ACTIVE port 3. -/
def withBeat (s : State) : State := modEgress 3 (fun e => { e with dueBeat := some 7 }) s
def withEcho (s : State) : State := modDelay 3 (fun d => { d with due := some .steady }) s
def copy : TriggerCopy := ⟨7, 2, 100000, false, false, 0⟩
def withTrigger (s : State) : State := modTriggers 3 (fun _ => ⟨[copy], false⟩) s
def withQueue (q : OriginState) (s : State) : State := { s with origins := s.origins.set 3 (some q) }
def ease : Entry := .notice .ease 0 []
def queueOf (e : Entry) : OriginState := ⟨none, [e], 0, false⟩

theorem witness_FreeBoundaryChoice :
    (hub .vacant).isFree 3 false = false ∧ (hub .active).pick 3 = none ∧
    (withBeat (withEcho (hub .active))).pick 3 = some (.beat 7) ∧
    (withEcho (withTrigger (hub .active))).pick 3 = some (.echo .steady) ∧
    (withTrigger (withQueue (queueOf ease) (hub .active))).pick 3 = some (.trigger copy) ∧
    (withQueue (queueOf ease) flow).pick 3 = some (.entry ease) ∧ flow.pick 3 = some (.samples 5) := by decide +kernel

theorem witness_UrgentLaunches :
    (let s := withBeat (hub .leaving)
     s.atRest = false ∧ s.isFree 3 true = true ∧ (s.ports[(3 : PortIx)]).state = .leaving ∧
      (s.egress[(3 : PortIx)]).dueBeat = some 7) ∧
    (let s := withEcho (hub .active)
     s.isFree 3 true = true ∧ (s.ports[(3 : PortIx)]).state = .active ∧ (s.egress[(3 : PortIx)]).dueBeat = none ∧
      (s.delays[(3 : PortIx)]).due = some .steady) ∧
    (let s := withEcho (hub .training)
     s.isFree 3 false = true ∧ (s.ports[(3 : PortIx)]).state = .training) ∧
    (let s := withTrigger (hub .active)
     s.isFree 3 false = true ∧ (s.ports[(3 : PortIx)]).state = .active ∧ (s.egress[(3 : PortIx)]).dueBeat = none ∧
      (s.delays[(3 : PortIx)]).due = none ∧ (s.triggers[(3 : PortIx)]).copies = [copy]) := by decide +kernel

/-- A BUSY answer at the head, with an answered order in the slot. -/
def behindBusy : OriginState := ⟨some ⟨5, 9, some (.done, [])⟩, [.reply false 6 4 .busy [], ease], 0, false⟩

theorem witness_NoticeReplyLaunch :
    (let s := withQueue (queueOf ease) (hub .joining)
     s.atRest = false ∧ s.isFree 3 false = true ∧ s.origins[(3 : PortIx)] = some (queueOf ease) ∧
      (queueOf ease).queue = ease :: [] ∧ (s.ports[(3 : PortIx)]).state = .joining) ∧
    (let q : OriginState := ⟨some ⟨1, 2, some (.done, [])⟩, [.reply true 1 2 .done [], ease], 0, false⟩
     let s := withQueue q (hub .leaving)
     s.isFree 3 false = true ∧ (s.ports[(3 : PortIx)]).state = .leaving ∧ (s.egress[(3 : PortIx)]).dueBeat = none ∧
      q.queue = .reply true 1 2 .done [] :: [ease] ∧ [ease] ≠ []) ∧
    (let s := withQueue behindBusy (hub .active)
     s.isFree 3 false = true ∧ (s.ports[(3 : PortIx)]).state = .active ∧ (s.egress[(3 : PortIx)]).dueBeat = none ∧
      (s.delays[(3 : PortIx)]).due = none ∧ (s.triggers[(3 : PortIx)]).copies = [] ∧
      behindBusy.slot = some ⟨5, 9, some (.done, [])⟩ ∧ [ease].all (fun x => !x.isReply) = true) ∧
    (let q := queueOf (.reply false 6 4 .busy [])
     (withQueue q (hub .active)).isFree 3 false = true ∧ q.slot = none) := by decide +kernel

/-- The last entry of a LEAVING port: its own reply, and a BUSY answer before a running and an answered order. -/
theorem witness_LastReplyLaunch :
    let own : OriginState := ⟨some ⟨1, 2, some (.done, [])⟩, [.reply true 1 2 .done []], 4, false⟩
    let busy (a : Option (ResultCode × List Byte)) : OriginState := ⟨some ⟨5, 9, a⟩, [.reply false 6 4 .busy []], 0, false⟩
    let s := withQueue own (hub .leaving)
    s.atRest = false ∧ s.isFree 3 true = true ∧ s.origins[(3 : PortIx)] = some own ∧ own.queue = [.reply true 1 2 .done []] ∧
      (s.ports[(3 : PortIx)]).state = .leaving ∧ (s.egress[(3 : PortIx)]).dueBeat = none ∧ s.drainSets[(3 : PortIx)] = [] ∧
      own.closed = false ∧ (busy none).slot = some ⟨5, 9, none⟩ ∧
      (busy (some (.done, []))).slot = some ⟨5, 9, some (.done, [])⟩ ∧
      (busy none).queue = [.reply false 6 4 .busy []] := by decide +kernel

theorem witness_SampleService :
    (hub .active).chooseTap 3 = none ∧
    flow.atRest = false ∧ flow.isFree 3 false = true ∧ (flow.ports[(3 : PortIx)]).state = .active ∧
    (flow.ports[(3 : PortIx)]).held = false ∧ (flow.egress[(3 : PortIx)]).dueBeat = none ∧
    (flow.delays[(3 : PortIx)]).due = none ∧ (flow.triggers[(3 : PortIx)]).copies = [] ∧
    (flow.origins[(3 : PortIx)]).all (fun q => q.queue = []) = true ∧ flow.chooseTap 3 = some 5 ∧
    flow.taps[(5 : TapIx)] = some tap5 ∧ flow.streams[tap5.stream] = some stream9 ∧ tap5.pending = block.number :: [] ∧
    stream9.fifo.find? (fun b => b.number == block.number) = some block ∧
    (1 ≤ 3 ∧ ([1, 2, 3, 4, 5, 6] : List Byte).length = 3 * 2) := by decide +kernel

/-- After a launch in the second slot of a cycle the first has carried FILL, and the slots of the parcel carry it. -/
theorem test_symbols_around_a_launch :
    let s := modEgress 3 (fun e => { e with flight := some ⟨.plain, [7], 13⟩ }) (atCycle 6 (hub .active))
    s.transmits 3 false = some .fill ∧ s.transmits 3 true = some .lead ∧
      (atCycle 7 s).transmits 3 false = some (.data 7) ∧ (atCycle 7 s).transmits 3 true = some .tail := by decide +kernel

/-- A delivery of stream 9's block that has ended. -/
def delivered (st : PortState) (r : Stream) (x : Tap) : State :=
  atCycle 6 (modEgress 3 (fun e => { e with flight := some ⟨.samples 9 0 5, [1, 2, 3], 8⟩ }) (flowOn st r x))

/-- Stream 9's block with two references. -/
def shared : Block := { block with refs := 2 }

theorem witness_SamplesTail :
    (let s := delivered .active stream9 { tap5 with pending := [], inFlight := some 0 }
     s.atRest = false ∧ (s.egress[(3 : PortIx)]).flight = some ⟨.samples 9 block.number 5, [1, 2, 3], 8⟩ ∧
      8 + 3 + 2 ≤ 2 * s.clock.cycle + 1 ∧ s.streams[(9 : StreamIx)] = some stream9 ∧ stream9.state ≠ .draining ∧
      stream9.fifo = [] ++ block :: [] ∧ block.refs ≤ 1) ∧
    (let s := delivered .active { stream9 with fifo := [shared] } tap5
     s.streams[(9 : StreamIx)] = some { stream9 with fifo := [shared] } ∧ 2 ≤ shared.refs) := by decide +kernel

theorem witness_Farewell :
    (let s := hub .leaving
     s.atRest = false ∧ s.inService = true ∧ s.origins[(3 : PortIx)] = some .initial ∧
      (s.ports[(3 : PortIx)]).state = .leaving ∧ s.drainSets[(3 : PortIx)] = [] ∧ OriginState.initial.queue = [] ∧
      OriginState.initial.closed = false) ∧
    ((hub .active).origins[(3 : PortIx)] = some .initial ∧ ((hub .active).ports[(3 : PortIx)]).state ≠ .leaving) ∧
    (let s := withQueue (queueOf ease) (hub .leaving)
     s.isFree 3 false = true ∧ (s.ports[(3 : PortIx)]).state = .leaving ∧ (s.egress[(3 : PortIx)]).dueBeat = none ∧
      s.drainSets[(3 : PortIx)] = [] ∧ NoticeKind.ease ≠ .farewell) ∧
    (let sent (st : PortState) := atCycle 6
       (modEgress 3 (fun e => { e with flight := some ⟨.farewell, [1, 2, 3], 8⟩ }) (hub st))
     ((sent .leaving).inService = true ∧ ((sent .leaving).egress[(3 : PortIx)]).flight = some ⟨.farewell, [1, 2, 3], 8⟩ ∧
       8 + 3 + 2 ≤ 2 * (sent .leaving).clock.cycle + 1 ∧ ((sent .leaving).ports[(3 : PortIx)]).state = .leaving) ∧
     ((sent .listening).egress[(3 : PortIx)]).flight = some ⟨.farewell, [1, 2, 3], 8⟩ ∧
       ((sent .listening).ports[(3 : PortIx)]).state ≠ .leaving) := by decide +kernel

/-! ### Witnesses: cable delay -/

theorem witness_DelayArithmetic :
    ((2047 : Nat) : Int) - (2048 : BitVec 24).toNat + 0 < 0 ∧ 131071 ≤ ((133119 : Nat) : Int) - (2048 : BitVec 24).toNat + 0 ∧
    measure 133118 2048 0 = .valid 65535 ∧
    (6 ≤ [9, 1, 2, 3, 4, 5].length ∧ [9, 1, 2, 3, 4, 5].length ≤ 8 ∧ (∀ x ∈ [9, 1, 2, 3, 4, 5], x ≤ 65535) ∧
      List.Perm [9, 1, 2, 3, 4, 5] (1 :: 9 :: [2, 3, 4, 5]) ∧ ∀ x ∈ [2, 3, 4, 5], 1 ≤ x ∧ x ≤ 9) := by decide +kernel

/-- An outstanding echo on port 3, sent at 0. -/
def echoing (purpose : Purpose) (training : Option Training) (s : State) : State :=
  modDelay 3 (fun d => { d with outstanding := some ⟨9, 0, 1048576, purpose⟩, training := training }) s

/-- The hub at a rack time, in sub-ticks. -/
def atTime (n : Nat) (s : State) : State := { s with clock := { s.clock with rackTime := BitVec.ofNat 64 n } }

/-- A training at its eighth round with some valid samples. -/
def lastRound (n : Nat) : State :=
  echoing (.training 8) (some ⟨8, List.replicate n (some 500) ++ List.replicate (7 - n) none⟩) (hub .training)

theorem witness_TrainingRounds :
    (let s := atTime 30500 (echoing (.training 7) (some ⟨7, [none]⟩) (hub .training))
     s.atRest = false ∧ (s.delays[(3 : PortIx)]).outstanding = some ⟨9, 0, 1048576, .training 7⟩ ∧
      (s.delays[(3 : PortIx)]).training = some ⟨7, [none]⟩ ∧ 7 < 8 ∧ (s.ports[(3 : PortIx)]).state.framerRuns = true ∧
      passed (parcelTaken 3 0 s).now 1048576 = false ∧
      measure ((parcelTaken 3 0 s).now - 0).toNat 2048 s.settings.asymmetry[(3 : PortIx)] = .valid 14226 ∧
      measure ((parcelTaken 3 0 s).now - 0).toNat 30501 s.settings.asymmetry[(3 : PortIx)] = .negative) ∧
    (let s := atTime 1048576 (echoing (.training 7) (some ⟨7, [none]⟩) (hub .training))
     reached s.now 1048576 = true) ∧
    (let s := lastRound 5
     s.inService = true ∧ (s.ports[(3 : PortIx)]).state = .training ∧
      (s.delays[(3 : PortIx)]).training = some ⟨8, List.replicate 5 (some 500) ++ [none, none]⟩ ∧
      passed (parcelTaken 3 0 s).now 1048576 = false ∧
      measure ((parcelTaken 3 0 s).now - 0).toNat 0 s.settings.asymmetry[(3 : PortIx)] = .valid 0 ∧
      6 ≤ (((List.replicate 5 (some (500 : BitVec 16)) ++ [none, none]) ++ [some 0]).filterMap id).length ∧
      (((List.replicate 5 (some (500 : BitVec 16)) ++ [none, none]) ++ [none]).filterMap id).length < 6) ∧
    reached (atTime 1048576 (lastRound 5)).now 1048576 = true := by decide +kernel

/-- Port 3 with a steady echo outstanding, an estimate and a run of missing echoes. -/
def steady (e : Estimate) (run : Nat) : State :=
  echoing .steady none (modDelay 3 (fun d => { d with estimate := some e })
    (modPort 3 (fun x => { x with missRun := run }) (hub .active)))

theorem witness_SteadyMeasurement :
    (let s := atTime 1000 (steady ⟨500, .steady, 16, 3⟩ 0)
     s.atRest = false ∧ (s.ports[(3 : PortIx)]).state.framerRuns = true ∧
      (s.delays[(3 : PortIx)]).outstanding = some ⟨9, 0, 1048576, .steady⟩ ∧
      (s.delays[(3 : PortIx)]).estimate = some ⟨500, .steady, 16, 3⟩ ∧
      passed (parcelTaken 3 0 s).now 1048576 = false ∧
      measure ((parcelTaken 3 0 s).now - 0).toNat 0 s.settings.asymmetry[(3 : PortIx)] = .valid 500 ∧ s.settings.gate = 512) ∧
    (512 < |((500 : BitVec 16).toNat : Int) - (1013 : BitVec 16).toNat|) ∧
    (|((500 : BitVec 16).toNat : Int) - (1012 : BitVec 16).toNat| ≤ 512) := by decide +kernel

theorem witness_EchoMisses :
    ((steady ⟨500, .steady, 16, 0⟩ 0).ports[(3 : PortIx)]).state.framerRuns = true ∧ (9 : Byte) ≠ 8 ∧
    ((hub .vacant).ports[(3 : PortIx)]).state.framerRuns = false ∧
    (let s := atTime 1048575 (steady ⟨500, .steady, 16, 0⟩ 0)
     s.atRest = false ∧ (s.delays[(3 : PortIx)]).outstanding = some ⟨9, 0, 1048576, .steady⟩ ∧
      reached s.now 1048576 = false) ∧
    (let s := atTime 1048576 (steady ⟨500, .steady, 16, 0⟩ 6)
     reached s.now 1048576 = true ∧ (s.ports[(3 : PortIx)]).missRun + 1 < 8) ∧
    (let s := atTime 1048576 (steady ⟨500, .steady, 16, 0⟩ 7)
     reached s.now 1048576 = true ∧ 8 ≤ (s.ports[(3 : PortIx)]).missRun + 1 ∧
      passed (parcelTaken 3 0 s).now 1048576 = false ∧
      measure ((parcelTaken 3 0 s).now - 0).toNat 0 s.settings.asymmetry[(3 : PortIx)] = .range) ∧
    (let s (run : Nat) := atTime 1048577 (steady ⟨500, .steady, 16, 0⟩ run)
     passed (parcelTaken 3 0 (s 6)).now 1048576 = true ∧ ((s 6).ports[(3 : PortIx)]).missRun + 1 < 8 ∧
      8 ≤ ((s 7).ports[(3 : PortIx)]).missRun + 1) ∧
    (let s := atTime 1048577 (echoing (.training 7) (some ⟨7, [none]⟩) (hub .training))
     passed (parcelTaken 3 0 s).now 1048576 = true ∧ (s.ports[(3 : PortIx)]).state.framerRuns = true ∧
      (s.delays[(3 : PortIx)]).training = some ⟨7, [none]⟩) := by decide +kernel

/-! ### Witnesses: the beat, streams and samples -/

/-- The hub with its rack time at beat 1. -/
def atBeat1 (s : State) : State := atTime (8192 * 256) s

theorem witness_BeatDue :
    (let n (s : State) : Beat := BitVec.ofNat 32 (s.clock.rackTime.toNat / 256 / 2 ^ s.tb.beatExp)
     (hub .active).atRest = false ∧ n (atTime (8192 * 256 - 1) (hub .active)) = (hub .active).tb.beat ∧
      n (atBeat1 (hub .active)) ≠ (hub .active).tb.beat ∧ ((hub .active).ports[(3 : PortIx)]).state = .active) ∧
    (let s := modPort 3 (fun x => { x with epoch := some 1 }) (hub .admitted)
     (s.ports[(3 : PortIx)]).state = .admitted ∧ (s.ports[(3 : PortIx)]).epoch = some 1) ∧
    ((hub .admitted).ports[(3 : PortIx)]).epoch ≠ some 1 ∧
    (let s := modPort 3 (fun x => { x with holdBeats := 0 }) held
     (s.ports[(3 : PortIx)]).held = true ∧ (s.ports[(3 : PortIx)]).holdBeats + 1 < s.settings.holdLimit) ∧
    (let s := modPort 3 (fun x => { x with joinDeadline := some 1 }) (hub .joining)
     (s.ports[(3 : PortIx)]).state = .joining ∧ (s.ports[(3 : PortIx)]).joinDeadline = some 1) := by decide +kernel

/-- Stream 9 waiting as an orphan. -/
def orphan : Stream := { stream9 with state := .orphaned, producer := none, orphanDeadline := some 0 }

theorem witness_EnterActive :
    (flowOn .admitted orphan tap5).BlockLaw ∧
    (let s := flowOn .admitted orphan tap5
     s.inService = true ∧ (s.ports[(3 : PortIx)]).state = .admitted ∧ (s.ports[(3 : PortIx)]).epoch = some s.tb.beat ∧
      s.streams[(9 : StreamIx)] = some orphan ∧ orphan.state = .orphaned ∧ s.frameId 3 = some orphan.frameId) ∧
    ((hub .active).inService = true ∧ ((hub .active).ports[(3 : PortIx)]).state ≠ .admitted) ∧
    (let s := modTb (fun t => { t with beat := 67 }) (modPort 3 (fun x => { x with epoch := some 67 }) (hub .admitted))
     (s.ports[(3 : PortIx)]).epoch = some s.tb.beat ∧ s.settings.echoExp = 6 ∧
      s.tb.beat.toNat % 2 ^ s.settings.echoExp = (3 : PortIx).val % 2 ^ s.settings.echoExp ∧
      (s.delays[(3 : PortIx)]).due = none ∧ (s.delays[(3 : PortIx)]).outstanding = none) :=
  ⟨(only_flowOn _ _ _).blocks (by decide +kernel) (by decide +kernel) (by decide +kernel) (by decide +kernel), by decide +kernel⟩

/-- The taps of a held port on a stream that another port produces: no drain, no RESUME of its own. -/
theorem witness_taps_are_shed :
    let s := modPort 3 (fun x => { x with held := true, holdBeats := 2 })
      (flowOn .active { stream9 with producer := some 2 } tap5)
    s.restarting = false ∧ ∀ (v : TapIx) x r, s.taps[v] = some x → s.streams[x.stream] = some r → x.consumer = 3 →
      r.state ≠ .draining ∧ r.producer ≠ some 3 := by
  have h : Only (modPort 3 (fun x => { x with held := true, holdBeats := 2 })
      (flowOn .active { stream9 with producer := some 2 } tap5)) { stream9 with producer := some 2 } tap5 :=
    (only_flowOn .active { stream9 with producer := some 2 } tap5).keeps rfl rfl
  refine ⟨by decide +kernel, fun v x r hv hr _ => ?_⟩
  obtain ⟨-, rfl⟩ := h.streamIs hr; decide

/-- The law of the blocks where a held port sheds. -/
theorem witness_shed_keeps_taps :
    let s := modPort 3 (fun x => { x with held := true, holdBeats := 2 }) flow
    s.BlockLaw ∧ s.taps[(5 : TapIx)] = some tap5 ∧ s.settings.holdLimit ≤ (s.ports[(3 : PortIx)]).holdBeats :=
  ⟨blocks_of_flow, by decide +kernel, by decide +kernel⟩

/-- A stream in a drain whose block tap 5 holds pending, and port 2 is sending or not. -/
def drainShed (k : Block) (sending : Bool) : State :=
  modPort 3 (fun x => { x with held := true, holdBeats := 2 })
    (modEgress 2 (fun e => { e with flight := if sending then some ⟨.samples 9 0 6, [1], 0⟩ else none })
      (flowOn .active { stream9 with state := .draining, producer := none, drainDeadline := some 9, fifo := [k] } tap5))

/-- A drain that keeps a block after the shed, and one that does not. -/
theorem witness_shed_in_a_drain :
    (let s := drainShed { block with refs := 2 } true
     s.BlockLaw ∧ s.keepsBlock 3 9) ∧
    (let s := drainShed block false
     s.BlockLaw ∧ ¬ s.keepsBlock 3 9) := by
  have only (k : Block) (b : Bool) : Only (drainShed k b)
      { stream9 with state := .draining, producer := none, drainDeadline := some 9, fifo := [k] } tap5 :=
    (only_flowOn .active _ _).keeps rfl rfl
  refine ⟨⟨(only _ _).blocks (by decide +kernel) (by decide +kernel) (by decide +kernel) (by decide +kernel),
    _, by rw [(only _ _).stream]; rfl, _, List.mem_singleton.mpr rfl, by decide +kernel⟩,
    (only _ _).blocks (by decide +kernel) (by decide +kernel) (by decide +kernel) (by decide +kernel), ?_⟩
  rintro ⟨r, hr, k, hk, h⟩
  obtain ⟨-, rfl⟩ := (only _ _).streamIs hr
  obtain rfl := List.mem_singleton.mp hk
  exact absurd h (by decide +kernel)

theorem witness_LimitExpiries :
    (let s := modPort 3 (fun x => { x with failures := 2 }) (hub .joining)
     s.inService = true ∧ (s.ports[(3 : PortIx)]).state = .joining ∧
      (s.ports[(3 : PortIx)]).joinDeadline = some s.tb.beat) ∧
    ((hub .active).ports[(3 : PortIx)]).state ≠ .joining ∧
    (let s := modPort 3 (fun x => { x with held := true, holdBeats := 2 }) flow
     s.atRest = false ∧ (s.ports[(3 : PortIx)]).state = .active ∧ (s.ports[(3 : PortIx)]).held = true ∧
      s.settings.holdLimit ≤ (s.ports[(3 : PortIx)]).holdBeats ∧ s.taps[(5 : TapIx)] = some tap5 ∧
      tap5.consumer = 3) ∧
    (let s := modPort 3 (fun x => { x with holdBeats := 1 }) held
     (s.ports[(3 : PortIx)]).holdBeats < s.settings.holdLimit) := by decide +kernel

/-- Stream 9 without blocks, in a state. -/
theorem blocks_of_emptied {st : PortState} {r : Stream} (h : r.taps = [5] ∧ r.fifo = [] ∧
    (r.state = .draining → r.drainDeadline ≠ none)) (he : ∀ p : PortIx, ((hub st).egress[p]).flight = none) :
    (flowOn st r { tap5 with pending := [] }).BlockLaw :=
  (only_flowOn _ _ _).blocks ⟨rfl, h.1, h.2.2⟩ (by simp [h.2.1]) (by simp) (fun p => by
    have : ((flowOn st r { tap5 with pending := [] }).egress[p]).flight = none := he p
    rw [this]; rfl)

theorem witness_StreamBeats :
    (flowOn .active { orphan with fifo := [] } { tap5 with pending := [] }).BlockLaw ∧
    (let r : Stream := { stream9 with state := .opening }
     let s := flowOn .active r tap5
     s.atRest = false ∧ s.streams[(9 : StreamIx)] = some r ∧ r.state = .opening ∧ r.startBeat = s.tb.beat) ∧
    (flow.streams[(9 : StreamIx)] = some stream9 ∧ stream9.state ≠ .opening) ∧
    (let s := flowOn .active orphan tap5
     s.streams[(9 : StreamIx)] = some orphan ∧ orphan.orphanDeadline = some s.tb.beat ∧ orphan.fifo ≠ []) ∧
    (let r : Stream := { orphan with fifo := [] }
     (flowOn .active r { tap5 with pending := [] }).streams[(9 : StreamIx)] = some r ∧ r.fifo = []) ∧
    stream9.state ≠ .orphaned ∧
    (let x : Tap := { tap5 with staged := some ⟨none, none, 4, true, 0⟩ }
     let s := flowOn .active stream9 x
     s.taps[(5 : TapIx)] = some x ∧ s.streams[x.stream] = some stream9 ∧ x.staged = some ⟨none, none, 4, true, 0⟩) ∧
    tap5.staged = none :=
  ⟨blocks_of_emptied (by decide +kernel) (by decide +kernel), by decide +kernel⟩

/-- Stream 9 in a drain at its deadline. -/
def draining (fifo : List Block) (taps : List TapIx) (closeBy : Option Origin) : Stream :=
  { stream9 with
    state := .draining, producer := none, drainDeadline := some 0, fifo := fifo, taps := taps, closeBy := closeBy }

/-- The law of the blocks in the states in which a drain ends: emptied, at its deadline, at the last TAIL. -/
theorem witness_drains_are_told :
    (flowOn .active (draining [] [5] (some .service)) { tap5 with pending := [] }).BlockLaw ∧
    (flowOn .active (draining [block] [5] none) tap5).BlockLaw ∧
    (delivered .active (draining [block] [5] none) { tap5 with pending := [], inFlight := some 0 }).BlockLaw ∧
    (draining [block] [5] none).producer = none ∧ (draining [block] [5] none).drainDeadline ≠ none ∧
    flow.restarting = false := by
  have h : Only (delivered .active (draining [block] [5] none) { tap5 with pending := [], inFlight := some 0 })
      (draining [block] [5] none) { tap5 with pending := [], inFlight := some 0 } :=
    (only_flowOn .active (draining [block] [5] none) { tap5 with pending := [], inFlight := some 0 }).keeps rfl rfl
  refine ⟨blocks_of_emptied (by decide +kernel) (by decide +kernel),
    (only_flowOn _ _ _).blocks (by decide +kernel) (by decide +kernel) (by decide +kernel) (by decide +kernel),
    h.blocks (by decide +kernel) (by decide +kernel) (by decide +kernel) (by decide +kernel), by decide +kernel, by decide +kernel, by decide +kernel⟩

theorem witness_DrainEnds :
    (let s := flowOn .active (draining [] [5] none) { tap5 with pending := [] }
     s.atRest = false ∧ s.streams[(9 : StreamIx)] = some (draining [] [5] none) ∧
      (draining [] [5] none).state = .draining ∧ (draining [] [5] none).drainDeadline ≠ none) ∧
    ((draining [block] [5] none).fifo ≠ [] ∧
      (draining [block] [5] none).drainDeadline = some (hub .active).tb.beat) ∧
    (draining [block] [5] none).drainDeadline ≠ some 1 ∧
    (let r := draining [block] [5] none
     let s := delivered .active r { tap5 with pending := [], inFlight := some 0 }
     (s.egress[(3 : PortIx)]).flight = some ⟨.samples 9 block.number 5, [1, 2, 3], 8⟩ ∧
      8 + 3 + 2 ≤ 2 * s.clock.cycle + 1 ∧ s.streams[(9 : StreamIx)] = some r ∧ r.fifo = [block] ∧ block.refs ≤ 1) ∧
    (let r := draining [] [] (some (.port 3))
     let q : OriginState := ⟨some ⟨1, 9, none⟩, [], 0, false⟩
     let s := withQueue q (flowOn .active r { tap5 with stream := 8 })
     s.restarting = false ∧ r.closeBy = some (.port 3) ∧ s.origin (.port 3) = some q ∧
      q.slot = some ⟨1, 0x09, none⟩ ∧ q.hasReply = false ∧ r.taps = [] ∧ r.fifo = [] ∧
      r.drainDeadline ≠ none) := by decide +kernel

theorem law_of_settings : Settings.erased.Law := by unfold Settings.Law; decide +kernel

theorem blocks_at_beat1 {s : State} (h : s.BlockLaw) : (atBeat1 s).BlockLaw := h

theorem no_shed {s : State} (h : ∀ p : PortIx, s.holdEnds p = false) (st : StreamIx) : ¬ s.beatSheds st := by
  rintro ⟨v, x, -, -, -, hx⟩; rw [h] at hx; cases hx

/-- Port 3 held for a beat already, with tap 5 on stream 9. -/
def heldFlow : State := modPort 3 (fun x => { x with held := true, holdBeats := 1 }) flow

/-- Port 3 reaches its hold limit, or the join limit of an attempt. -/
theorem witness_BeatEndsLimits :
    (heldFlow.atRest = false ∧ heldFlow.holdEnds 3 = true ∧ (1 : Beat) ≠ heldFlow.tb.beat ∧
      BitVec.ofNat 32 ((atBeat1 heldFlow).clock.rackTime.toNat / 256 / 2 ^ (atBeat1 heldFlow).tb.beatExp) = (1 : Beat)) ∧
    (let s := modPort 3 (fun x => { x with joinDeadline := some 1, failures := 2 }) (hub .joining)
     s.joinEnds 1 3 = true ∧ 3 ≤ (s.ports[(3 : PortIx)]).failures + 1) := by decide +kernel

/-- Stream 9 at beat 1, the beat of its start, of its drain deadline or of its orphan deadline, and at another. -/
def starting (n : Beat) : Stream := { stream9 with state := .opening, startBeat := n }
def drainingTo (n : Beat) : Stream := { draining [block] [5] none with drainDeadline := some n }
def orphanTo (n : Beat) : Stream := { orphan with orphanDeadline := some n }

/-- Port 3 enters ACTIVE at beat 1. -/
def entering (r : Stream) (x : Tap) : State := modPort 3 (fun y => { y with epoch := some 1 }) (flowOn .admitted r x)

theorem laws_of_beat {st : PortState} {r : Stream} (h : r.fifo = [block] ∧ r.taps = [5] ∧
    (r.state = .draining → r.drainDeadline ≠ none)) : (flowOn st r tap5).BlockLaw := by
  refine (only_flowOn st r tap5).blocks ⟨rfl, h.2.1, h.2.2⟩ ?_ ⟨by decide, ?_⟩ fun p => ?_
  · rw [h.1]
    intro k hk
    obtain rfl := List.mem_singleton.mp hk
    exact (by decide +kernel : 1 ≤ block.refs ∧ block.refs = flow.holders 9 block.number)
  · rw [h.1]; decide
  · have : ((flowOn st r tap5).egress[p]).flight = none :=
      (by decide +kernel : ∀ p : PortIx, (State.reset.egress[p]).flight = none) p
    rw [this]; rfl

theorem witness_BeatMovesStreams :
    ((flowOn .active stream9 tap5).settings.Law ∧ (flowOn .active (starting 1) tap5).BlockLaw ∧
      (flowOn .active (starting 2) tap5).BlockLaw ∧ (flowOn .active stream9 tap5).BlockLaw ∧
      (flowOn .active (drainingTo 1) tap5).BlockLaw ∧ (flowOn .active (drainingTo 2) tap5).BlockLaw ∧
      (flowOn .active (orphanTo 1) tap5).BlockLaw ∧ (flowOn .active (orphanTo 2) tap5).BlockLaw ∧
      (flowOn .active { orphanTo 1 with fifo := [] } { tap5 with pending := [] }).BlockLaw ∧
      (entering (orphanTo 1) tap5).BlockLaw) ∧
    (∀ st, ¬ (flowOn .active stream9 tap5).beatSheds st) ∧
    ((drainingTo 1).drainDeadline = some 1 ∧ (drainingTo 2).drainDeadline ≠ some 1 ∧ (drainingTo 1).fifo ≠ [] ∧
      (orphanTo 1).orphanDeadline = some 1 ∧ (orphanTo 2).orphanDeadline ≠ some 1 ∧ (orphanTo 1).fifo ≠ [] ∧
      (starting 1).startBeat = 1 ∧ (starting 2).startBeat ≠ 1) ∧
    ((flowOn .active (orphanTo 1) tap5).adopter 1 (orphanTo 1) = none ∧
      (entering (orphanTo 1) tap5).adopter 1 (orphanTo 1) = some 3) :=
  ⟨⟨law_of_settings, laws_of_beat (by decide), laws_of_beat (by decide), laws_of_beat (by decide), laws_of_beat (by decide),
    laws_of_beat (by decide), laws_of_beat (by decide), laws_of_beat (by decide),
    blocks_of_emptied (by decide +kernel) (by decide +kernel), (laws_of_beat (by decide) : (flowOn .admitted _ _).BlockLaw)⟩,
    no_shed (by decide +kernel), by decide +kernel, by decide +kernel⟩

/-- Tap 5 with a set that changes its decimation staged. -/
theorem witness_BeatAltersTaps :
    heldFlow.settings.Law ∧ heldFlow.BlockLaw ∧
    (let x : Tap := { tap5 with staged := some ⟨none, none, 4, true, 0⟩ }
     (flowOn .active stream9 x).taps[(5 : TapIx)] = some x ∧ (flowOn .active stream9 x).streams[x.stream] = some stream9 ∧
      x.staged = some ⟨none, none, 4, true, 0⟩) ∧
    (heldFlow.holdEnds tap5.consumer = true ∧ heldFlow.taps[(5 : TapIx)] = some tap5) :=
  ⟨law_of_settings, blocks_of_flow, by decide +kernel, by decide +kernel⟩

theorem witness_BeatCountsHoldover :
    let s (n : Nat) := modTb (fun t => { t with state := .holdover, holdoverBeats := n }) State.reset
    (s 4095).atRest = false ∧ (s 4095).settings.holdoverLimit ≤ (s 4095).tb.holdoverBeats + 1 ∧
      (s 4094).tb.holdoverBeats + 1 < (s 4094).settings.holdoverLimit ∧ State.reset.tb.state ≠ .holdover := by
  decide +kernel

/-- At beat 1 port 3 takes its orphan up; no close order is pending. -/
theorem witness_BeatTells :
    let s := entering (orphanTo 1) tap5
    s.inService = true ∧ s.settings.Law ∧ s.BlockLaw ∧ s.StreamLaw ∧ s.ReferenceLaw ∧
      (¬ ∃ st r, s.streams[(st : StreamIx)] = some r ∧ r.closeBy = some .service) ∧
      (¬ ∃ st r, s.streams[(st : StreamIx)] = some r ∧ r.closeBy = some (.port 3)) ∧ (∀ st, ¬ s.beatSheds st) ∧
      (s.ports[(3 : PortIx)]).state ≠ .leaving ∧ s.joinEnds 1 3 = false ∧
      s.beatNotices 1 3 = [(.adopted, [9, 2]), (.streamResumed, [9, 1])] ∧ (s.beatPortEvents 1).length = 1 := by
  have h : Only (entering (orphanTo 1) tap5) (orphanTo 1) tap5 := (only_flowOn .admitted (orphanTo 1) tap5).keeps rfl rfl
  have open_ (o : Origin) : ¬ ∃ st r, (entering (orphanTo 1) tap5).streams[(st : StreamIx)] = some r ∧ r.closeBy = some o := by
    rintro ⟨st, r, hr, hc⟩
    rw [(h.streamIs hr).2] at hc; cases hc
  refine ⟨by decide +kernel, law_of_settings, (laws_of_beat (by decide) : (flowOn .admitted _ _).BlockLaw),
    ⟨fun a b x y hx hy _ _ => by rw [(h.streamIs hx).1, (h.streamIs hy).1], fun st r hr => ?_⟩,
    ⟨show (entering (orphanTo 1) tap5).tb.selected = none ∧ (entering (orphanTo 1) tap5).best = none by decide +kernel,
      by decide +kernel⟩, open_ _, open_ _, no_shed (by decide +kernel), by decide +kernel, by decide +kernel,
    by decide +kernel, by decide +kernel⟩
  rw [(h.streamIs hr).2]
  exact ⟨rfl, by decide, by decide⟩

theorem witness_SamplesDiscarded :
    (flow.atRest = false ∧ ((hub .joining).ports[(3 : PortIx)]).state.framerRuns = true ∧
      ((hub .joining).ports[(3 : PortIx)]).state ≠ .active ∧ (List.replicate 256 (0 : Byte)).length ≤ 256) ∧
    ((flow.ports[(3 : PortIx)]).state = .active ∧ flow.producerMap 3 1 = none ∧ flow.frameId 3 = some 7340101 ∧
      flow.identity 7340101 1 = none) ∧
    (let r := draining [block] [5] none
     let s := flowOn .active r tap5
     s.producerMap 3 2 = none ∧ s.identity 7340101 2 = some 9 ∧ s.streams[(9 : StreamIx)] = some r ∧
      r.state = .draining) ∧
    (let r : Stream := { stream9 with state := .opening }
     (flowOn .active r tap5).producerMap 3 2 = some 9 ∧ r.state = .opening) ∧
    (flow.producerMap 3 2 = some 9 ∧ flow.streams[(9 : StreamIx)] = some stream9 ∧ stream9.state = .flowing ∧
      stream9.spp < (3 : BitVec 16).toNat) ∧
    (¬ ((2 : BitVec 16) = 0 ∨ stream9.spp < (2 : BitVec 16).toNat ∨
        ([1, 2, 3, 4] : List Byte).length ≠ stream9.width * (2 : BitVec 16).toNat) ∧
      stream9.baseline = some ⟨1000, 1000000, 2⟩ ∧
      32768 ≤ ((33768 : BitVec 16) - (1000 : BitVec 16)).toNat) := by decide +kernel

theorem witness_SamplesTaken :
    (let r : Stream := { stream9 with taps := [] }
     let s := flowOn .active r { tap5 with stream := 8 }
     s.atRest = false ∧ (s.ports[(3 : PortIx)]).state = .active ∧ s.producerMap 3 2 = some 9 ∧
      s.streams[(9 : StreamIx)] = some r ∧ r.state = .flowing ∧ 1 ≤ (2 : BitVec 16).toNat ∧
      (2 : BitVec 16).toNat ≤ r.spp ∧ ([1, 2, 3, 4] : List Byte).length = r.width * (2 : BitVec 16).toNat ∧
      r.taps = [] ∧ r.baseline = some ⟨1000, 1000000, 2⟩ ∧
      ((33767 : BitVec 16) - (1000 : BitVec 16)).toNat < 32768) ∧
    (flow.inService = true ∧ flow.producerMap 3 2 = some 9 ∧ stream9.taps = [5] ∧
      stream9.baseline = some ⟨1000, 1000000, 2⟩ ∧ flow.taps[(5 : TapIx)] = some tap5 ∧
      tap5.settings.windowOpen = none ∧ tap5.settings.windowClose = none ∧ tap5.phase = some 0 ∧
      0 < tap5.settings.decimation ∧ (1000 : BitVec 16).toNat % tap5.settings.decimation = 0 ∧
      tap5.pending.length < tap5.settings.lag ∧ flow.store.free = 1 :: (List.range 1024).drop 2 ∧
      stream9.fifo.length < stream9.depth ∧ stream9.fifo.length < 4 ∧ stream9.eased = false ∧
      stream9.fifo.length + 1 < 3 * stream9.depth / 4) ∧
    (let r : Stream := { stream9 with depth := 2 }
     let eased : Stream := { r with eased := true }
     3 * r.depth / 4 ≤ r.fifo.length + 1 ∧ r.depth / 2 ≤ eased.fifo.length + 1) ∧
    (let eased : Stream := { stream9 with eased := true }
     eased.fifo.length + 1 < eased.depth / 2) ∧
    (let r : Stream := { stream9 with depth := 1 }
     r.depth ≤ r.fifo.length) ∧
    (let r : Stream := { stream9 with fifo := [block, block, block, block] }
     let full : Stream := { r with tag := 3, fifo := List.replicate 1020 block }
     let s : State := { flow with streams := (flow.streams.set 9 (some r)).set 10 (some full) }
     r.fifo.length < r.depth ∧ 4 ≤ r.fifo.length ∧ 1024 ≤ s.floorSum) ∧
    (16 : Nat) ∈ [1, 2, 4, 8, 16] ∧ 15 < 16 := by decide +kernel

theorem flow_active : (flow.ports[(3 : PortIx)]).state = .active := by decide +kernel

/-- Stream 9 takes a parcel of two samples with a sequence number up to 32,767 ahead. -/
theorem ingests_flow (x : Tap) (sequence : BitVec 16) (h : (sequence - 1000).toNat < 32768) :
    (flowOn .active stream9 x).ingests 3 2 sequence 2 [1, 2, 3, 4] 9 stream9 := by
  refine ⟨?_, ?_, by decide +kernel, ?_, by simp [flowOn], by decide, by decide, by decide, by decide, ?_⟩
  · show flow.inService = true
    decide +kernel
  · exact flow_active
  · show (flowOn .active stream9 tap5).producerMap 3 2 = some 9
    decide +kernel
  · intro b hb; cases hb; exact h

/-- Tap 5 without or with a phase, with its window, decimation 4 and a lag limit. -/
def windowed (phase : Option Nat) (opens closes : Option Stamp) (lag : Nat) : Tap :=
  { tap5 with phase := phase, settings := ⟨opens, closes, 4, false, lag⟩ }

theorem laws_of_windowed (phase : Option Nat) (opens closes : Option Stamp) (lag : Nat) :
    (flowOn .active stream9 (windowed phase opens closes lag)).PoolLaw ∧
      (flowOn .active stream9 (windowed phase opens closes lag)).BlockLaw := by
  refine ⟨pool_of_flow, (only_flowOn _ _ _).blocks ⟨rfl, rfl, by decide⟩ ?_ ?_ ?_⟩
  · show ∀ k ∈ stream9.fifo, 1 ≤ k.refs ∧ k.refs = flow.holders 9 k.number
    decide +kernel
  · show tap5.pending.Nodup ∧ ∀ b ∈ tap5.pending, ∃ k ∈ stream9.fifo, k.number = b
    decide +kernel
  · show ∀ p : PortIx, ((flow.egress[p]).flight).all _ = true
    decide +kernel

theorem witness_selection :
    ((flowOn .active stream9 (windowed none (some 1000001) none 32)).ingests 3 2 1000 2 [1, 2, 3, 4] 9 stream9 ∧
      (1000000 : Stamp).toNat < (1000001 : Stamp).toNat ∧ (4 : Nat) ∈ [1, 2, 4, 8, 16]) ∧
    ((flowOn .active stream9 (windowed (some 0) (some 1000000) (some 1000001) 32)).ingests 3 2 1003 2 [1, 2, 3, 4] 9 stream9 ∧
      (1000000 : Stamp).toNat < (1000001 : Stamp).toNat ∧ (1003 : BitVec 16).toNat % 4 ≠ 0) ∧
    (let s := flowOn .active stream9 (windowed (some 0) none (some 1000000) 32)
     s.ingests 3 2 1000 2 [1, 2, 3, 4] 9 stream9 ∧ s.PoolLaw ∧ s.BlockLaw ∧
      (1000000 : Stamp).toNat ≤ (1000000 : Stamp).toNat) ∧
    (let s := flowOn .active stream9 (windowed (some 0) none none 1)
     s.ingests 3 2 1000 2 [1, 2, 3, 4] 9 stream9 ∧ s.PoolLaw ∧ s.BlockLaw ∧ (1000 : BitVec 16).toNat % 4 = 0 ∧
      1 ≤ tap5.pending.length ∧ s.store.free ++ freed tap5.pending stream9.fifo = 1 :: ((List.range 1024).drop 2 ++ [0]) ∧
      (released tap5.pending stream9.fifo).length < 4) :=
  ⟨⟨ingests_flow _ _ (by decide), by decide, by decide⟩, ⟨ingests_flow _ _ (by decide), by decide, by decide⟩,
    ⟨ingests_flow _ _ (by decide), (laws_of_windowed _ _ _ _).1, (laws_of_windowed _ _ _ _).2, le_refl _⟩,
    ingests_flow _ _ (by decide), (laws_of_windowed _ _ _ _).1, (laws_of_windowed _ _ _ _).2, by decide, by decide,
    by decide +kernel, by decide +kernel⟩

/-- Stream 9 with two taps: 5 of port 3 and 6 of port 2. -/
def twin (r : Stream) (x y : Tap) : State :=
  { flowOn .active r x with taps := (flowOn .active r x).taps.set 6 (some y) }

theorem taps_of_twin (r : Stream) (x y : Tap) :
    (twin r x y).taps.toList = List.replicate 5 none ++ [some x, some y] ++ List.replicate 121 none := by
  simp only [twin, flowOn]
  rfl

/-- A block of stream 9 is held by those of the two taps that have it pending. -/
theorem holders_of_twin (r : Stream) {x y : Tap} (hx : x.stream = 9) (hy : y.stream = 9) (b : Nat) :
    (twin r x y).holders 9 b = (if x.pending.contains b then 1 else 0) + (if y.pending.contains b then 1 else 0) := by
  have he : (twin r x y).egress.toList = List.replicate 12 ⟨none, 0, none, 127⟩ := rfl
  unfold State.holders
  rw [he, taps_of_twin]
  simp [List.countP_cons, hx, hy]
  omega

/-- The law of the blocks, where the taps 5 and 6 are on stream 9 and every block pends on tap 5, or on both. -/
theorem blocks_of_twin {r : Stream} {x y : Tap} (hx : x.stream = 9) (hy : y.stream = 9) (hr : r.taps = [5, 6])
    (hs : r.state = .flowing) (hn : x.pending.Nodup ∧ y.pending.Nodup) (hp : x.pending = r.fifo.map (·.number))
    (hq : ∀ b ∈ y.pending, b ∈ x.pending)
    (hk : ∀ k ∈ r.fifo, k.refs = if y.pending.contains k.number then 2 else 1) : (twin r x y).BlockLaw := by
  have streams : ∀ a : StreamIx, (twin r x y).streams[a] = if a = 9 then some r else none := (only_flowOn .active r x).stream
  have taps : ∀ v : TapIx, (twin r x y).taps[v] = if v = 5 then some x else if v = 6 then some y else none := by
    intro v
    show ((flowOn .active r x).taps.set 6 (some y))[v] = _
    have h5 := (only_flowOn .active r x).tap v
    by_cases h6 : v = 6
    · subst h6; simp
    · have : (6 : Nat) ≠ v.val := fun e => h6 (Fin.ext e.symm)
      simp only [Fin.getElem_fin] at h5 ⊢
      rw [Vector.getElem_set, if_neg this, h5, if_neg h6]
  have only9 {a : StreamIx} {z : Stream} (h : (twin r x y).streams[a] = some z) : a = 9 ∧ z = r := by
    rw [streams] at h
    split at h
    · exact ⟨‹_›, (Option.some.inj h).symm⟩
    · cases h
  refine fun _ => ⟨fun st z hz => ?_, fun st z hz k hm => ?_, fun v z hz => ?_, fun p st b t bytes start hf => ?_⟩
  · obtain ⟨rfl, rfl⟩ := only9 hz
    refine ⟨by rw [hr]; decide, fun v => ?_, fun h => by rw [hs] at h; cases h⟩
    rw [taps, hr]
    by_cases h5 : v = 5
    · simp [h5, hx]
    · by_cases h6 : v = 6 <;> simp [h5, h6, hy]
  · obtain ⟨rfl, rfl⟩ := only9 hz
    have hb : x.pending.contains k.number = true := by
      rw [hp]; simpa using ⟨k, hm, rfl⟩
    rw [holders_of_twin z hx hy, hb, hk k hm]
    split <;> simp_all
  · rw [taps] at hz
    have found : ∀ b ∈ x.pending, ∃ k ∈ r.fifo, k.number = b := fun b hb => by simpa [hp] using hb
    have h9 : ∀ a : StreamIx, a = 9 → (twin r x y).streams[a] = some r := fun a ha => by rw [streams, if_pos ha]
    split at hz
    · cases hz; exact ⟨hn.1, r, h9 _ hx, found⟩
    · split at hz
      · cases hz; exact ⟨hn.2, r, h9 _ hy, fun b hb => found b (hq b hb)⟩
      · cases hz
  · have : ((twin r x y).egress[p]).flight = none :=
      (by decide +kernel : ∀ p : PortIx, ((hub .active).egress[p]).flight = none) p
    rw [this] at hf; cases hf

/-- Stream 9 with `n` blocks that pend on tap 5, with a depth limit and an ease state. -/
def filled (n depth : Nat) (eased : Bool) : Stream :=
  { stream9 with
    taps := [5, 6], depth := depth, eased := eased, fifo := (List.range n).map (fun i => { block with number := i }) }

/-- Tap 5, and tap 6 of port 2 with a phase, at decimation 2. -/
def first (n : Nat) : Tap := { tap5 with pending := List.range n, settings := ⟨none, none, 2, false, 2048⟩ }
def second (phase : Option Nat) : Tap :=
  { tap5 with consumer := 2, pending := [], phase := phase, settings := ⟨none, none, 2, false, 8⟩ }

theorem laws_of_several (n depth : Nat) (eased : Bool) (phase : Option Nat) :
    (twin (filled n depth eased) (first n) (second phase)).BlockLaw :=
  blocks_of_twin rfl rfl rfl rfl ⟨List.nodup_range, List.nodup_nil⟩ (by
      simp only [first, filled, List.map_map]; exact (List.map_id _).symm)
    (by intro b hb; cases hb) (by intro k hk; simp only [filled, List.mem_map] at hk; obtain ⟨i, -, rfl⟩ := hk; rfl)

/-- Two taps meet a parcel: sequence number 1000 is selected by both at phase 0, by the second without a phase too, and not at
phase 1; 1001 by neither at phase 0. -/
theorem witness_SeveralTaps :
    (∀ (n depth : Nat) (eased : Bool) (phase : Option Nat),
      (twin (filled n depth eased) (first n) (second phase)).BlockLaw) ∧
    (let s := twin (filled 1 32 false) (first 1) (second (some 0))
     s.inService = true ∧ (s.ports[(3 : PortIx)]).state = .active ∧ s.producerMap 3 2 = some 9 ∧
      s.streams[(9 : StreamIx)] = some (filled 1 32 false) ∧ ((1001 : BitVec 16) - 1000).toNat < 32768) ∧
    ((first 1).settings.decimation ∈ [1, 2, 4, 8, 16] ∧ (second (some 1)).settings.decimation ∈ [1, 2, 4, 8, 16] ∧
      1 < (second (some 1)).settings.decimation ∧ (first 1024).pending.length < (first 1024).settings.lag) ∧
    ((1000 : BitVec 16).toNat % 2 = 0 ∧ (1001 : BitVec 16).toNat % 2 ≠ 0 ∧ (first 1).phase = some 0 ∧
      (second none).phase = none) ∧
    ((filled 1 32 false).fifo.length + 1 < 3 * 32 / 4 ∧ 3 * 8 / 4 ≤ (filled 5 8 false).fifo.length + 1 ∧
      8 / 2 ≤ (filled 3 8 true).fifo.length + 1 ∧ (filled 1 32 true).fifo.length + 1 < 32 / 2) ∧
    (8 ≤ (filled 8 8 false).fifo.length ∧ (filled 1024 1025 false).fifo.length < 1025 ∧
      1024 ≤ (twin (filled 1024 1025 false) (first 1024) (second none)).floorSum) :=
  ⟨laws_of_several, by decide +kernel, by decide +kernel, by decide +kernel, by decide +kernel, by decide +kernel⟩

/-! ### Witnesses: the reference -/

/-- A timebase in a state, with a source selected, and port 3 a candidate. -/
def clocked (st : TimebaseState) (c : Option Source) (s : State) : State :=
  modTb (fun t => { t with state := st, selected := c, candidates := t.candidates.set 3 (some ⟨2, 5⟩) }) s

/-- REFIN enabled, and active or not. -/
def refin (active : Bool) (s : State) : State :=
  { s with settings := { s.settings with refinEnable := true }, tb := { s.tb with refinActive := active } }

theorem witness_BestCandidate :
    State.reset.best = none ∧ (clocked .free none (hub .active)).best = some (.port 3, ⟨2, 5⟩) ∧
      (refin true State.reset).eligible .refin ≠ none ∧
      (clocked .free none (hub .active)).eligible (.port 3) = some ⟨2, 5⟩ := by decide +kernel

theorem witness_RefinEdges :
    ((refin true State.reset).tb.refinActive = true ∧ (refin true State.reset).isReference .refin = false) ∧
    (let s (n : Nat) := modTb (fun t => { t with state := .locked, selected := some .refin, edges := n })
       (refin true State.reset)
     (s 78).isReference .refin = true ∧ (s 78).tb.edges + 1 < 80 ∧ 80 ≤ (s 79).tb.edges + 1) ∧
    (State.reset.tb.refinActive = false ∧ State.reset.settings.refinEnable = false ∧ State.reset.tb.state = .free ∧
      State.reset.best = none) ∧
    ((refin false State.reset).settings.refinEnable = true ∧ (refin false State.reset).best = none ∧
      (refin false State.reset).tb.selected = none) ∧
    (let s (st : TimebaseState) := atCycle 1024
       (modTb (fun t => { t with state := st, selected := some .refin }) (refin true State.reset))
     (s .locked).atRest = false ∧ 1024 ≤ (s .locked).clock.cycle - (s .locked).tb.refinLastEdge ∧
      (∀ p : PortIx, (s .locked).eligible (.port p) = none) ∧ (s .locked).tb.selected = some .refin ∧
      (s .locked).tb.state = .locked ∧ (s .acquiring).tb.state = .acquiring) ∧
    (atCycle 1023 (refin true State.reset)).clock.cycle < 1024 := by decide +kernel

/-- A comparison of port 3 at a rack time, with an expected time of 256,000. -/
def compared (now : Nat) (f : Timebase → Timebase) (st : TimebaseState) : State :=
  modTb f (modTb (fun t => { t with expected := some 0 }) (clocked st (some (.port 3)) (atTime now (hub .active))))

/-- The phase error of a comparison. -/
def errorAt (s : State) : Int :=
  max (-32767) (min ((0 : Stamp) + 256000 - (opened 0 s).now).toInt 32767)

theorem witness_Comparisons :
    (let s := compared 255936 (fun t => { t with inWindow := 14, comparisons := 1022 }) .acquiring
     s.inService = true ∧ errorAt s = 64 ∧ s.tb.inWindow + 1 < 16 ∧ s.tb.comparisons + 1 < 1024) ∧
    (let s := compared 255936 (fun t => { t with inWindow := 15 }) .acquiring
     16 ≤ s.tb.inWindow + 1) ∧
    (let s := compared 256065 (fun t => { t with inWindow := 15, comparisons := 1023 }) .acquiring
     errorAt s = -65 ∧ 1024 ≤ s.tb.comparisons + 1 ∧ s.tb.selected = some (.port 3) ∧ s.eligible .refin = none ∧
      ∀ p : PortIx, p ≠ 3 → s.eligible (.port p) = none) ∧
    (errorAt (compared 255744 id .locked) = 256 ∧ errorAt (compared 255743 id .locked) = 257) ∧
    (let s := compared 255743 (fun t => { t with excursions := 2 }) .locked
     s.tb.excursions + 1 < 4) ∧
    (let s := compared 255743 (fun t => { t with excursions := 3 }) .locked
     4 ≤ s.tb.excursions + 1 ∧ s.best = some (.port 3, ⟨2, 5⟩)) ∧
    (compared 0 id .holdover).tb.state = .holdover ∧
    (let s (n : Nat) := compared 0 (fun t => { t with edges := n }) .locked
     (s 1999).atRest = false ∧ ((s 1999).ports[(3 : PortIx)]).state.framerRuns = true ∧
      ((s 1999).ports[(3 : PortIx)]).framer.mode = .outside ∧ (s 1999).isReference (.port 3) = true ∧
      2000 ≤ (s 1999).tb.edges + 1 ∧ (s 1998).tb.edges + 1 < 2000 ∧
      framerNext ((s 1999).ports[(3 : PortIx)]).framer .lead = some ⟨.inside, []⟩ ∧
      framerFails ((s 1999).ports[(3 : PortIx)]).framer .tail = some (⟨.outside, []⟩, false) ∧
      ((s 1999).ports[(3 : PortIx)]).score + 8 < 256) := by decide +kernel

/-- The 2000th slot is a comparison and a symbol. -/
theorem witness_EverySymbolIsCompared :
    Runs (exec (.comparison 0) (compared 0 (fun t => { t with edges := 1999 }) .locked)) fun u =>
      Runs (exec (.receivedSymbol 3 .illegal 0) u) fun _ => True := ⟨_, rfl, _, rfl, trivial⟩

theorem witness_ReferenceLost :
    (atCycle 2999 (compared 0 id .locked)).clock.cycle - (compared 0 id .locked).tb.edgeSince < 3000 ∧
    (let s := atCycle 3000 (compared 0 id .acquiring)
     s.atRest = false ∧ 3000 ≤ s.clock.cycle - s.tb.edgeSince ∧ s.tb.state = .acquiring ∧
      s.tb.selected = some (.port 3) ∧ s.eligible .refin = none ∧ ∀ p : PortIx, p ≠ 3 → s.eligible (.port p) = none) ∧
    (let s := atCycle 3000 (compared 0 id .locked)
     s.tb.state = .locked ∧ s.best = some (.port 3, ⟨2, 5⟩)) ∧
    (let s (n : Nat) := modTb (fun t => { t with state := .holdover, holdoverBeats := n }) State.reset
     (s 4096).inService = true ∧ (s 4096).settings.holdoverLimit ≤ (s 4096).tb.holdoverBeats ∧
      (s 4096).tb.selected = none ∧ (s 4095).tb.holdoverBeats < (s 4095).settings.holdoverLimit) := by decide +kernel

/-! ### Witnesses: triggers and pins -/

/-- Line 31 with a last accepted stamp of 1000 sub-ticks and a holdoff of 1 tick. -/
def lined (s : State) : State := modLine 31 (fun x => { x with last := some 1000, holdoff := 1 }) s

theorem witness_TriggerInbound :
    (((hub .joining).ports[(3 : PortIx)]).state.framerRuns = true ∧ ((hub .joining).ports[(3 : PortIx)]).state ≠ .active) ∧
    32 ≤ (32 : Byte).toNat ∧
    (let s := atTime 5000 (lined (hub .active))
     s.atRest = false ∧ (s.ports[(3 : PortIx)]).state = .active ∧ (s.lines[(31 : LineIx)]).last = some 1000 ∧
      ¬ (parcelTaken 3 0 s).now.toNat + 512 < (1255 : Stamp).toNat ∧ (1255 : Stamp).toNat < (1000 : Stamp).toNat + 1 * 256 ∧
      (1000 : Stamp).toNat + 1 * 256 ≤ (1256 : Stamp).toNat ∧ (31 : LineIx).val = (31 : Byte).toNat ∧
      ∀ i : PinIx, (s.pins[i]).mode = .output → (s.pins[i]).line ≠ 31) ∧
    (let s := modLine 31 (fun x => { x with subscribers := x.subscribers.set 2 true })
       (modTriggers 2 (fun _ => ⟨List.replicate 16 copy, false⟩) (hub .active))
     (s.lines[(31 : LineIx)]).subscribers[(2 : PortIx)] = true ∧ 16 ≤ (s.triggers[(2 : PortIx)]).copies.length ∧
      (s.lines[(31 : LineIx)]).subscribers[(1 : PortIx)] = false) ∧
    (modTriggers 2 (fun _ => ⟨List.replicate 15 copy, false⟩) (hub .active)).triggers[(2 : PortIx)].copies.length < 16 := by
  decide +kernel

/-- Pin 2 in a mode, with a polarity, a fire list and a pulse. -/
def pinned (mode : PinMode) (polarity : Nat) (fires : List Stamp) (pulse : Option Pulse) (s : State) : State :=
  modPin 2 (fun x => { x with mode := mode, polarity := polarity, line := 31, fires := fires, pulse := pulse }) s

theorem witness_PinEdge :
    (let s := pinned .input 0 [] none State.reset
     s.atRest = false ∧ (s.pins[(2 : PinIx)]).mode = .input ∧ (s.pins[(2 : PinIx)]).reference = false ∧
      (s.pins[(2 : PinIx)]).polarity = 0 ∧ (s.pins[(2 : PinIx)]).line = 31 ∧
      (∀ q : PortIx, (s.lines[(31 : LineIx)]).subscribers[q] = false) ∧
      ∀ j : PinIx, (s.pins[j]).mode = .output → (s.pins[j]).line ≠ 31) ∧
    (((pinned .input 1 [] none State.reset).pins[(2 : PinIx)]).polarity = 1) ∧
    (let s := atTime 1767 (lined (pinned .input 2 [] none State.reset))
     (s.lines[(31 : LineIx)]).last = some 1000 ∧
      (BitVec.ofNat 64 (s.clock.rackTime.toNat / 256 * 256 - 512) : Stamp).toNat < (1000 : Stamp).toNat + 1 * 256) ∧
    (let s := atTime 1792 (lined (pinned .input 2 [] none State.reset))
     (1000 : Stamp).toNat + 1 * 256 ≤ (BitVec.ofNat 64 (s.clock.rackTime.toNat / 256 * 256 - 512) : Stamp).toNat) ∧
    (pinned .off 0 [] none State.reset).pins[(2 : PinIx)].mode ≠ .input := by decide +kernel

theorem witness_PinFires :
    (700 : Stamp).toNat + 255 < 2 ^ 64 ∧
    (let s := atTime 512 (pinned .output 0 [] (some ⟨256, 1024⟩) State.reset)
     (s.pins[(2 : PinIx)]).pulse = some ⟨256, 1024⟩ ∧ s.now.toNat < 1024 ∧
      (700 + 255) / 256 * 256 < 1024 ∧ 1024 ≤ (1000 + 255) / 256 * 256) ∧
    (let s := atTime 1024 (pinned .output 0 [2048, 2049, 4096, 5000] (some ⟨256, 1024⟩) State.reset)
     (1024 : Stamp).toNat ≤ s.now.toNat ∧ (1000 + 255) / 256 * 256 ≤ s.now.toNat ∧ s.now.toNat < (1025 + 255) / 256 * 256 ∧
      (s.pins[(2 : PinIx)]).fires.length = 4 ∧
      [(2048 : Stamp), 2049, 4096, 5000].Pairwise (fun a b => a.toNat ≤ b.toNat)) ∧
    (let s := pinned .output 0 [2048, 4096] none State.reset
     s.atRest = false ∧ (s.pins[(2 : PinIx)]).mode = .output ∧ (s.pins[(2 : PinIx)]).fires = 2048 :: [4096] ∧
      (atTime 2047 s).now.toNat < (fireMoment 2048).toNat ∧ (fireMoment 2048).toNat ≤ (atTime 2048 s).now.toNat ∧
      [(4096 : Stamp)].all (fun h => decide ((atTime 2048 s).now.toNat < (fireMoment h).toNat)) = true) ∧
    (let s := pinned .output 0 [2048, 4096] (some ⟨1792, 2304⟩) State.reset
     (s.pins[(2 : PinIx)]).pulse = some ⟨1792, 2304⟩ ∧ (fireMoment 2048).toNat < 2304 ∧
      2304 ≤ (atTime 2304 s).now.toNat ∧ (atTime 2303 s).now.toNat < 2304) ∧
    (let s := atTime 2304 (pinned .output 0 [2048, 2304] (some ⟨1792, 2304⟩) State.reset)
     (s.pins[(2 : PinIx)]).pulse = some ⟨1792, 2304⟩ ∧ (Pulse.stop ⟨1792, 2304⟩).toNat ≤ (fireMoment 2304).toNat ∧
      (s.pins[(2 : PinIx)]).fires.all (fun g => decide
        (s.now.toNat < (fireMoment g + BitVec.ofNat 64 ((s.pins[(2 : PinIx)]).width * 256)).toNat)) = true) :=
  ⟨by decide +kernel, by decide +kernel⟩

/-- A cycle of 257 sub-ticks reaches the fire moment 2048 and the pulse end 2304: the fire is merged, in either order. -/
theorem test_a_fire_inside_an_ended_pulse_merges :
    let s := atTime 2304 (pinned .output 0 [2048] (some ⟨1792, 2304⟩) State.reset)
    let merged (t : State) : Prop := (t.pins[(2 : PinIx)]).counters.mergedFires = 1 ∧
      (t.pins[(2 : PinIx)]).counters.fires = 0 ∧ (t.pins[(2 : PinIx)]).pulse = none ∧ (t.pins[(2 : PinIx)]).fires = []
    merged (s |> endPulse 2 |> firePin 2) ∧ merged (s |> firePin 2 |> endPulse 2) := by decide +kernel

/-! ### Witnesses: orders -/

/-- An ACTIVE port 3 whose slot and queue are as given. -/
def ordering (q : OriginState) : State := withQueue q (hub .active)

/-- The slot of an order in progress. -/
def busySlot : OriginState := ⟨some ⟨1, 9, none⟩, [], 0, false⟩

theorem witness_OrderTests :
    (let s := ordering busySlot
     s.atRest = false ∧ (s.ports[(3 : PortIx)]).state.framerRuns = true ∧ (s.ports[(3 : PortIx)]).state ≠ .training ∧
      s.origin (.port 3) = some busySlot ∧ busySlot.slot.isSome = true ∧ busySlot.hasReply = false) ∧
    ((queueOf (.reply true 1 9 .done [])).hasReply = true) ∧
    ((hub .joining).slotFree (.port 3) = true ∧ ((hub .joining).ports[(3 : PortIx)]).state ≠ .active ∧
      ¬ (((hub .joining).ports[(3 : PortIx)]).state = .joining ∧ OrderCode.readStore = .join)) ∧
    ((hub .active).ready (.port 3) = true ∧ Origin.port 3 ≠ .service ∧ (hub .active).settings.frameWrite = false) ∧
    ((hub .active).ready (.port 3) = true ∧ ([0] : List Byte).length ≠ OrderCode.readStore.argLength (.port 3) ∧
      (List.replicate 32 (0 : Byte)).length ≤ 32) ∧
    State.reset.ready .service = true ∧
    (let q : OriginState := ⟨some ⟨1, 9, some (.done, [])⟩, [], 0, false⟩
     (ordering q).inService = true ∧ (ordering q).origin (.port 3) = some q ∧ q.slot = some ⟨1, 9, some (.done, [])⟩ ∧
      q.hasReply = false ∧ busySlot.slot = some ⟨1, 9, none⟩) := by decide +kernel

/-- The arguments of a JOIN of frame 7,340,101. -/
def joinArgs : List Byte := [0, 0x70, 0, 0x45, 5, 1]

theorem witness_JoinAdmits :
    ((hub .joining).slotFree (.port 3) = true ∧ joinArgs.length = 6 ∧ field joinArgs 5 1 ≤ 1 ∧
      ((hub .joining).ports[(3 : PortIx)]).state = .joining ∧
      ∀ q : PortIx, (hub .joining).frameId q ≠ some (BitVec.ofNat 32 (field joinArgs 0 4))) ∧
    (let s := modPort 2 (fun x => { x with frame := some ⟨0x700045, 0, false⟩ }) (hub .joining)
     s.frameId 2 = some (BitVec.ofNat 32 (field joinArgs 0 4))) ∧
    (hub .active).slotFree (.port 3) = true ∧ ([] : List Byte).length ≠ 6 ∧ 1 < field [0, 0, 0, 1, 5, 2] 5 1 := by
  decide +kernel

theorem witness_DetachAndReset :
    (11 < field [12] 0 1 ∧ State.reset.ready .service = true) ∧
    (flow.ready (.port 3) = true ∧ (flow.ports[(3 : PortIx)]).state = .active ∧ flow.streams[(9 : StreamIx)] = some stream9 ∧
      flow.produces 3 9 = true) ∧
    (let s := withQueue busySlot flow
     s.ready .service = true ∧ ([3] : List Byte).length = 1 ∧ field [3] 0 1 = (3 : PortIx).val ∧
      s.origins[(3 : PortIx)] = some busySlot ∧ busySlot.slot = some ⟨1, 9, none⟩) ∧
    (let q : OriginState := ⟨none, [ease, ease], 0, false⟩
     let s := withQueue q flow
     s.ready (.port 3) = true ∧ s.ready .service = true ∧ s.origins[(3 : PortIx)] = some q ∧ q.queue = [ease, ease]) ∧
    ((hub .leaving).ready .service = true ∧ ((hub .leaving).ports[(3 : PortIx)]).state ≠ .active) ∧
    (((hub .vacant).ports[(3 : PortIx)]).state = .vacant ∧ (hub .vacant).ready .service = true) ∧
    (let s := modPort 2 (fun x => { x with state := .admitted }) (hub .active)
     s.ready (.port 3) = true ∧ field [2] 0 1 = (2 : PortIx).val ∧ (s.ports[(2 : PortIx)]).state.isRegistered = true) ∧
    ((hub .parked).ready .service = true ∧ ((hub .parked).ports[(3 : PortIx)]).state ≠ .vacant) := by decide +kernel

/-- The acquisition on port 3 keeps the law of the reference. -/
theorem law_of_acquiring : (clocked .acquiring (some (.port 3)) (hub .active)).ReferenceLaw :=
  ⟨show (clocked .acquiring (some (.port 3)) (hub .active)).selectedEligible = true by decide +kernel, by decide +kernel⟩

/-- Port 3 is the only candidate. -/
theorem only_port3 (st : TimebaseState) (c : Source) (h : c ≠ .port 3) :
    (clocked st (some (.port 3)) (hub .active)).eligible c = none := by
  rcases c with _ | p
  · exact (by decide +kernel : (clocked .free (some (.port 3)) (hub .active)).eligible .refin = none)
  · have all : ∀ p : PortIx, p ≠ 3 → (clocked .free (some (.port 3)) (hub .active)).eligible (.port p) = none := by
      decide +kernel
    exact all p (fun e => h (by rw [e]))

theorem witness_withdrawal :
    (∀ c, c ≠ .port 3 → (clocked .locked (some (.port 3)) (hub .active)).eligible c = none) ∧
    (∀ c, c ≠ .port 3 → (clocked .acquiring (some (.port 3)) (hub .active)).eligible c = none) ∧
    (let s := clocked .locked (some (.port 3)) (hub .active)
     s.ready (.port 3) = true ∧ s.tb.candidates[(3 : PortIx)] ≠ none ∧ s.tb.selected = some (.port 3) ∧
      s.tb.state = .locked) := ⟨only_port3 _, only_port3 _, by decide +kernel⟩

theorem witness_ReferenceOrders :
    (clocked .acquiring (some (.port 3)) (hub .active)).ReferenceLaw ∧
    ((hub .active).ready (.port 3) = true ∧ 3 < field [4, 0] 0 1 ∧ 15 < field [0, 16] 1 1 ∧ field [3, 15] 0 1 ≤ 3 ∧
      field [3, 15] 1 1 ≤ 15 ∧ (hub .active).tb.state = .free ∧ (hub .active).tb.selected = none ∧
      (hub .active).best = none ∧ (hub .active).tb.candidates[(3 : PortIx)] = none) ∧
    (let s := modTb (fun t => { t with state := .locked, selected := some .refin })
       (refin true { hub .active with settings := { Settings.erased with refinClass := 3 } })
     s.ready (.port 3) = true ∧ s.tb.state = .locked ∧ s.selectedEligible = true ∧ s.tb.selected ≠ some (.port 3) ∧
      field [3, 15] 0 1 ≤ s.classOf s.tb.selected ∧ (s.eligible .refin).map (·.cls) = some 3 ∧
      ∀ p : PortIx, s.eligible (.port p) = none) ∧
    (let s := clocked .acquiring (some (.port 3)) (hub .active)
     s.ready (.port 3) = true ∧ s.tb.candidates[(3 : PortIx)] ≠ none) :=
  ⟨law_of_acquiring, by decide +kernel⟩

/-- The candidates of ports 3 (class 2) and 2 with a class, and a timebase state on port 3. -/
def rivals (st : TimebaseState) (cls : Nat) : State :=
  modTb (fun t => { t with candidates := t.candidates.set 2 (some ⟨cls, 0⟩) }) (clocked st (some (.port 3)) (hub .active))

/-- The rows of R68 on port 2: above the reference in LOCKED it is switched to, of its class it is not; in ACQUIRING it is
taken by its rank; in HOLDOVER it is taken; with port 3 gone it is taken through HOLDOVER. -/
theorem test_selection_rows :
    ((rivals .locked 3).selection 6).1.selected = some (.port 2) ∧ ((rivals .locked 3).selection 6).2.length = 1 ∧
    (rivals .locked 2).selection 6 = ((rivals .locked 2).tb, []) ∧
    ((rivals .acquiring 2).selection 6).1.selected = some (.port 2) ∧
    ((rivals .holdover 1).selection 6).1.selected = some (.port 3) ∧
    (((rivals .locked 1).withdrawal 3).1.selected, ((rivals .locked 1).withdrawal 3).2.length) = (some (.port 2), 2) := by
  decide +kernel

theorem witness_ReferenceOrdersSelect :
    (rivals .locked 1).ready (.port 3) = true ∧ (rivals .locked 1).tb.candidates[(3 : PortIx)] ≠ none ∧
      field [3, 15] 0 1 ≤ 3 ∧ field [3, 15] 1 1 ≤ 15 := by decide +kernel

theorem law_of_flow : flow.StreamLaw := by
  have all : ∀ a : StreamIx, flow.streams[a] = if a = 9 then some stream9 else none := by decide +kernel
  have only (a : StreamIx) (r : Stream) (h : flow.streams[a] = some r) : a = 9 ∧ r = stream9 := by
    rw [all] at h
    split at h
    · exact ⟨‹_›, (Option.some.inj h).symm⟩
    · cases h
  refine ⟨fun a b x y h h' _ _ => ?_, fun st r h => ?_⟩
  · rw [(only a x h).1, (only b y h').1]
  · obtain ⟨rfl, rfl⟩ := only st r h
    exact ⟨show stream9.isLive = true ∧ _ from by decide +kernel, by decide +kernel⟩

/-- The arguments of a FIND STREAM for stream 9. -/
def findArgs : List Byte := [0, 0x70, 0, 0x45, 2]

theorem witness_FindStream :
    (flow.ready (.port 3) = true ∧ ([] : List Byte).length ≠ 5) ∧ findArgs.length = 5 ∧
    flow.StreamLaw ∧ flow.streams[(9 : StreamIx)] = some stream9 ∧ stream9.frameId = BitVec.ofNat 32 (field findArgs 0 4) ∧
    stream9.tag = BitVec.ofNat 8 (field findArgs 4 1) ∧
    (hub .active).ready (.port 3) = true ∧ ∀ st : StreamIx, (hub .active).streams[st] = none := by
  refine ⟨?_, ?_, law_of_flow, ?_, ?_, ?_, ?_, ?_⟩ <;> decide +kernel

theorem witness_ReadOrders :
    flow.ready .service = true ∧ flow.ready (.port 3) = true ∧ field [11] 0 1 = (11 : PortIx).val ∧ 11 < field [12] 0 1 ∧
    63 < field [64, 0] 0 1 ∧ field [63, 0] 0 1 = (63 : StreamIx).val ∧ flow.streams[(63 : StreamIx)] = none ∧
    flow.streams[(9 : StreamIx)] = some stream9 ∧ field [9, 0] 1 1 = 0 ∧ field [9, 1] 1 1 = 1 ∧ 1 < field [9, 2] 1 1 ∧
    31 < field [32] 0 1 ∧ field [31] 0 1 = (31 : LineIx).val ∧ 3 < field [4] 0 1 ∧ field [3] 0 1 = (3 : PinIx).val ∧
    24 < field [13, 12] 0 1 + field [13, 12] 1 1 ∧ field [12, 12] 0 1 + field [12, 12] 1 1 ≤ 24 ∧
    flow.setup.operation = none ∧ writing.setup.operation ≠ none ∧ writing.ready .service = true := by decide +kernel

/-- The arguments of an OPEN STREAM: tag, width, spp, period, depth, priority, start beat. -/
def openArgs (width spp beatFlag beat : Byte) : List Byte :=
  [7, width, 0, spp, 0, 0x7D, 0, 1, 0, 3, beatFlag, 0, 0, 0, beat]

theorem witness_StreamOrders :
    (flowOn .active { stream9 with fifo := [] } { tap5 with pending := [] }).BlockLaw ∧
    ((hub .active).ready (.port 3) = true ∧ (hub .active).frameId 3 = some 7340101 ∧ (openArgs 4 64 1 9).length = 15 ∧
      field (openArgs 4 64 1 9) 1 1 ≤ 4 ∧ field (openArgs 4 64 1 9) 1 1 * field (openArgs 4 64 1 9) 2 2 ≤ 256 ∧
      1 ≤ field (openArgs 4 64 1 9) 4 3 ∧ 256 < field (openArgs 4 65 1 9) 1 1 * field (openArgs 4 65 1 9) 2 2 ∧
      (∀ st : StreamIx, (hub .active).streams[st] = none) ∧ (hub .active).floorSum ≤ 1020 ∧
      field (openArgs 4 64 1 9) 10 1 % 2 = 1) ∧
    (let r : Stream := { stream9 with tag := 7 }
     (flowOn .active r tap5).streams[(9 : StreamIx)] = some r ∧ r.frameId = 7340101 ∧ r.tag = 7) ∧
    (let s : State := { hub .active with streams := Vector.replicate 64 (some stream9) }
     ∀ st : StreamIx, s.streams[st] ≠ none) ∧
    (flow.ready (.port 3) = true ∧ field [9] 0 1 = (9 : StreamIx).val ∧ flow.streams[(9 : StreamIx)] = some stream9 ∧
      stream9.producer = some 3 ∧ stream9.state ≠ .draining ∧ stream9.fifo ≠ []) ∧
    63 < field [64] 0 1 ∧ ((hub .active).streams[(9 : StreamIx)] = none ∧ (draining [block] [5] none).state = .draining ∧
      orphan.producer ≠ some 3) ∧
    (let r : Stream := { stream9 with fifo := [] }
     (flowOn .active r { tap5 with pending := [] }).streams[(9 : StreamIx)] = some r ∧ r.fifo = []) :=
  ⟨blocks_of_emptied (by decide +kernel) (by decide +kernel), by decide +kernel⟩

/-- R158: a drain's DONE follows its STREAM ENDED alone, and goes before a STREAM RESUMED of the same event. -/
theorem test_done_of_a_drain_in_the_order_of_posts :
    let sent (posts : List Post) : List Entry :=
      (flush { hub .active with
        posts := posts
        origins := State.reset.origins.set 3 (some ⟨some ⟨1, 9, some (.done, [])⟩, [], 0, false⟩) }).origins[(3 : PortIx)].elim
        [] (·.queue)
    let done : Post := ⟨.port 3, .drainReply⟩
    let ended : Post := ⟨.port 3, .notice .streamEnded [1]⟩
    let resumed : Post := ⟨.port 3, .notice .streamResumed [2]⟩
    sent [ended, done] = [.notice .streamEnded 0 [1], .reply true 1 9 .done []] ∧
      sent [resumed, done] = [.reply true 1 9 .done [], .notice .streamResumed 0 [2]] ∧
      sent [ended, done, resumed] =
        [.reply true 1 9 .done [], .notice .streamResumed 0 [2], .notice .streamEnded 0 [1]] := by decide +kernel

/-- The arguments of an ADD TAP and of an ALTER TAP, from the present flags on. -/
def tapArgs (lag : Byte) : List Byte := 0 :: (List.replicate 16 0 ++ [4, 1, 0, lag])

theorem law_of_flow_taps : flow.TapLaw := by
  have all : ∀ t : TapIx, flow.taps[t] = if t = 5 then some tap5 else none := by decide +kernel
  have alls : ∀ a : StreamIx, (flow.streams[a]).all (fun r => decide (r.taps.length ≤ 6)) = true := by decide +kernel
  have only (t : TapIx) (x : Tap) (h : flow.taps[t] = some x) : t = 5 ∧ x = tap5 := by
    rw [all] at h
    split at h
    · exact ⟨‹_›, (Option.some.inj h).symm⟩
    · cases h
  refine ⟨fun t x h => ?_, fun t u x y h h' _ _ => ?_, fun st r h => ?_⟩
  · obtain ⟨rfl, rfl⟩ := only t x h; decide +kernel
  · rw [(only t x h).1, (only u y h').1]
  · have := alls st
    rw [h] at this
    exact of_decide_eq_true this

theorem witness_TapRefusals :
    (flow.ready .service = true ∧ ([] : List Byte).length ≠ 24 ∧ 63 < field ([64, 3, 1] ++ tapArgs 32) 0 1 ∧
      11 < field ([9, 12, 1] ++ tapArgs 32) 1 1 ∧ tapSettings? ([9, 3, 1] ++ List.replicate 21 0) 3 = none ∧
      11 < field [12, 1] 0 1 ∧ Origin.port 2 ≠ .port 3) ∧
    (field ([3, 7] ++ tapArgs 32) 0 1 = (3 : PortIx).val ∧ ([3, 7] ++ tapArgs 32).length = 23 ∧
      tapSettings? ([3, 7] ++ tapArgs 32) 2 ≠ none) ∧
    ∀ (v : TapIx) x, flow.taps[v] = some x → x.consumer = 3 → x.tag ≠ BitVec.ofNat 8 (field ([3, 7] ++ tapArgs 32) 1 1) := by
  refine ⟨by decide +kernel, by decide +kernel, fun v x h _ => ?_⟩
  obtain ⟨-, rfl⟩ := (only_flowOn .active stream9 tap5).tapIs h
  decide +kernel

theorem witness_TapOrders :
    (flow.TapLaw ∧ flow.PoolLaw ∧ flow.BlockLaw) ∧
    ((hub .active).ready (.port 3) = true ∧ ([9, 3, 1] ++ tapArgs 32).length = 24 ∧
      field ([9, 3, 1] ++ tapArgs 32) 0 1 = (9 : StreamIx).val ∧ field ([9, 3, 1] ++ tapArgs 32) 1 1 = (3 : PortIx).val ∧
      tapSettings? ([9, 3, 1] ++ tapArgs 32) 3 = some ⟨none, none, 4, true, 32⟩ ∧
      tapSettings? ([9, 3, 1] ++ tapArgs 33) 3 = some ⟨none, none, 4, true, 33⟩ ∧ Origin.port 3 ≠ .port 2) ∧
    (let s : State := { flow with taps := State.reset.taps, streams := State.reset.streams.set 9 (some { stream9 with taps := [] }) }
     s.ready (.port 3) = true ∧ (s.ports[(3 : PortIx)]).state = .active ∧
      s.streams[(9 : StreamIx)] = some { stream9 with taps := [] } ∧ stream9.depth = 32 ∧
      s.taps[(0 : TapIx)] = none) ∧
    ((hub .active).streams[(9 : StreamIx)] = none ∧ ((hub .leaving).ports[(3 : PortIx)]).state ≠ .active ∧
      (hub .leaving).ready .service = true ∧ (draining [block] [5] none).state = .draining) ∧
    (let r : Stream := { stream9 with taps := [0, 1, 2, 3, 4, 5] }
     6 ≤ r.taps.length) ∧
    (flow.taps[(5 : TapIx)] = some tap5 ∧ tap5.consumer = 3 ∧ tap5.stream = 9 ∧ flow.taps[(0 : TapIx)] = none) ∧
    (flow.ready (.port 3) = true ∧ flow.streams[tap5.stream] = some stream9 ∧ field ([3, 1] ++ tapArgs 32) 0 1 = tap5.consumer.val ∧
      BitVec.ofNat 8 (field ([3, 1] ++ tapArgs 32) 1 1) = tap5.tag ∧ ([3, 1] ++ tapArgs 32).length = 23 ∧
      tapSettings? ([3, 1] ++ tapArgs 32) 2 = some ⟨none, none, 4, true, 32⟩ ∧ stream9.state ≠ .draining) ∧
    (let x : Tap := { tap5 with pending := [] }
     x.pending = [] ∧ flow.produces 3 x.stream = true ∧ flow.produces 2 x.stream = false) :=
  ⟨⟨law_of_flow_taps, pool_of_flow, blocks_of_flow⟩, by decide +kernel⟩

theorem witness_Subscriptions :
    ((hub .active).ready (.port 3) = true ∧ State.reset.ready .service = true ∧ 31 < field [32] 0 1) ∧
      field [31] 0 1 = (31 : LineIx).val ∧ (hub .admitted).slotFree (.port 3) = true ∧
      ((hub .admitted).ports[(3 : PortIx)]).state = .admitted := by decide +kernel

theorem witness_SetLineAndPin :
    (State.reset.ready .service = true ∧ ([31, 0, 63, 0, 9] : List Byte).length = 5 ∧ 31 < field [32, 0, 63, 0, 9] 0 1 ∧
      field [31, 0, 63, 0, 9] 0 1 = (31 : LineIx).val) ∧
    (3 < field [4, 0, 0, 0, 0] 0 1 ∧ 2 < field [0, 3, 0, 0, 0] 1 1 ∧ field [0, 2, 2, 0, 0] 1 1 = 2 ∧
      1 < field [0, 2, 2, 0, 0] 2 1) ∧
    (field [2, 2, 1, 31, 0] 0 1 = (2 : PinIx).val ∧ pinMode? (field [2, 2, 1, 31, 0] 1 1) = some .output ∧
      field [2, 2, 1, 31, 0] 3 1 = (31 : LineIx).val ∧ field [2, 2, 1, 31, 0] 2 1 ≤ 1 ∧
      ((pinned .output 1 [2048] none State.reset).pins[(2 : PinIx)]).mode = .output ∧
      ((pinned .output 1 [2048] none State.reset).pins[(2 : PinIx)]).line = 31 ∧
      ((pinned .output 1 [2048] none State.reset).pins[(2 : PinIx)]).polarity = 1) ∧
    (pinMode? (field [2, 1, 2, 31, 0] 1 1) = some .input ∧ field [2, 1, 2, 31, 0] 2 1 ≤ 2 ∧
      (State.reset.pins[(2 : PinIx)]).mode ≠ .output) := by decide +kernel

/-- Arguments of a SET PARAM: code, port, value. -/
def paramArgs (code port : Byte) (value : BitVec 32) : List Byte := code :: port :: be 4 value.toNat

/-- A hub in FREE with another slew keeps the law of the reference. -/
theorem law_of_free : (modSettings (fun w => { w with slew := 9 }) State.reset).ReferenceLaw :=
  ⟨show State.reset.tb.selected = none ∧ (modSettings (fun w => { w with slew := 9 }) State.reset).best = none by
    decide +kernel, by decide +kernel⟩

/-- REFIN active, enabled or not, of class 0, with a timebase state and a reference. -/
def refinIn (enabled : Bool) (st : TimebaseState) (c : Option Source) : State :=
  { State.reset with
    settings := { Settings.erased with refinEnable := enabled }
    tb := { State.reset.tb with state := st, selected := c, refinActive := true } }

/-- LOCKED on port 3 of class 2, with REFIN eligible in class 0. -/
def refinBelow : State := clocked .locked (some (.port 3)) (refin true (hub .active))

theorem witness_ReferenceParameters :
    (let s := refinIn false .free none
     s.ready .service = true ∧ (paramArgs 9 0 1).length = 6 ∧ field (paramArgs 9 0 1) 0 1 = 0x09 ∧
      (BitVec.ofNat 32 (field (paramArgs 9 0 1) 2 4)).toInt = 1 ∧ s.tb.state = .free ∧ s.tb.selected = none ∧
      (∀ p : PortIx, s.eligible (.port p) = none) ∧ s.tb.refinActive = true ∧ s.tb.refinFailed = false) ∧
    (let s := refinIn true .locked (some .refin)
     s.ready .service = true ∧ (BitVec.ofNat 32 (field (paramArgs 9 0 0) 2 4)).toInt = 0 ∧ s.tb.selected = some .refin ∧
      (∀ p : PortIx, s.eligible (.port p) = none) ∧ s.tb.state = .locked ∧
      (refinIn true .acquiring (some .refin)).tb.state = .acquiring) ∧
    (refinBelow.ready .service = true ∧ field (paramArgs 10 0 3) 0 1 = 0x0A ∧ refinBelow.tb.state = .locked ∧
      refinBelow.selectedEligible = true ∧ refinBelow.tb.selected ≠ some .refin ∧ refinBelow.eligible .refin ≠ none ∧
      refinBelow.classOf refinBelow.tb.selected < 3 ∧
      (∀ p : PortIx, (refinBelow.eligible (.port p)).all (fun x => decide (x.cls ≤ 2)) = true) ∧
      2 ≤ refinBelow.classOf refinBelow.tb.selected) := by decide +kernel

theorem witness_SetParam :
    (modSettings (fun w => { w with slew := 9 }) State.reset).ReferenceLaw ∧
    (State.reset.ready .service = true ∧ (paramArgs 0x10 11 1).length = 6 ∧ field (paramArgs 0x10 11 1) 0 1 = 0x10 ∧
      field (paramArgs 0x10 11 1) 1 1 = (11 : PortIx).val ∧ 11 < field (paramArgs 0x10 12 1) 1 1 ∧
      (BitVec.ofNat 32 (field (paramArgs 0x10 11 2) 2 4)).toInt = 2 ∧
      (BitVec.ofNat 32 (field (paramArgs 0x08 0 0xFFFFF801) 2 4)).toInt = -2047) ∧
    (let s := modSettings (fun w => { w with frameWrite := true }) (hub .active)
     s.ready (.port 3) = true ∧ s.settings.frameWrite = true ∧ field (paramArgs 1 2 1) 1 1 = (2 : PortIx).val ∧
      (2 : PortIx) ≠ 3) ∧
    (field (paramArgs 0x20 0 0) 0 1 = 0x20 ∧ field (paramArgs 0x11 0 0) 0 1 = 0x11) ∧
    (((hub .vacant).ports[(3 : PortIx)]).state = .vacant ∧ ((hub .vacant).ports[(3 : PortIx)]).presence = true ∧
      (State.reset.ports[(3 : PortIx)]).presence = false) ∧
    ((flow.ports[(3 : PortIx)]).state = .active ∧ flow.ready .service = true ∧ flow.produces 3 9 = true) ∧
    (State.reset.tb.state = .free ∧ State.reset.tb.refinActive = false ∧ State.reset.eligible .refin = none ∧
      (compared 0 id .locked).tb.state ≠ .free) :=
  ⟨law_of_free, by decide +kernel⟩

/-- A store with word 5 programmed, protected or not. -/
def stored (last : BitVec 32) : State :=
  { State.reset with setup := ⟨((Vector.replicate 24 0xFFFFFFFF).set 5 7).set 23 last, none⟩ }

theorem witness_SetupOrders :
    (State.reset.ready .service = true ∧ ([22, 0, 0, 0, 1] : List Byte).length = 5 ∧ 23 < field [24, 0, 0, 0, 1] 0 1 ∧
      field [22, 0, 0, 0, 1] 0 1 = (22 : Fin 24).val ∧ field [23, 0, 0, 0, 1] 0 1 = (23 : Fin 24).val ∧
      State.reset.setup.operation = none ∧ writing.setup.operation ≠ none ∧ writing.ready .service = true) ∧
    ((stored 1).setup.words[(23 : Fin 24)] ≠ 0xFFFFFFFF ∧ (stored 1).setup.words[(23 : Fin 24)].getLsbD 0 = true ∧
      (stored 1).setup.words[(5 : Fin 24)] ≠ 0xFFFFFFFF ∧ (stored 1).setup.words[(22 : Fin 24)] = 0xFFFFFFFF) ∧
    ((stored 0).setup.words[(23 : Fin 24)].getLsbD 0 = false ∧ (stored 0).ready .service = true) ∧
    (let x : SetupOperation := ⟨some (5, 0x1234), .service, 48000000⟩
     let s : State := { State.reset with
       setup := ⟨Vector.replicate 24 0xFFFFFFFF, some x⟩, service := ⟨⟨some ⟨3, 0x18, none⟩, [], 0, false⟩, 0, .idle⟩ }
     s.inService = true ∧ s.setup.operation = some x ∧ reached (atTime 47999999 s).now x.completes = false ∧
      reached (atTime 48000000 s).now x.completes = true ∧ x.write = some (5, 0x1234) ∧
      s.origin x.origin = some ⟨some ⟨3, 0x18, none⟩, [], 0, false⟩) ∧
    (let x : SetupOperation := ⟨none, .service, 0⟩
     let s : State := { State.reset with setup := ⟨Vector.replicate 24 0xFFFFFFFF, some x⟩ }
     s.setup.operation = some x ∧ x.write = none) := by decide +kernel

theorem witness_RestartHub :
    (flow.ready .service = true ∧ ∀ p : PortIx, (flow.egress[p]).flight = none) ∧
    (let s := modEgress 3 (fun e => { e with flight := some ⟨.plain, [1], 0⟩ }) flow
     s.ready .service = true ∧ (s.egress[(3 : PortIx)]).flight = some ⟨.plain, [1], 0⟩ ∧
      2 * s.clock.cycle + 1 < Flight.stop ⟨.plain, [1], 0⟩) ∧
    (restartingHub.atRest = false ∧ restartingHub.restarting = true ∧ restartingHub.anyFlight = true ∧
      restartingHub.service.origin.slot = some ⟨9, 0x1A, none⟩) ∧
    (let s := modEgress 3 (fun e => { e with flight := none }) restartingHub
     s.restarting = true ∧ s.anyFlight = false) ∧
    (let s := clocked .locked (some (.port 3)) flow
     s.ready .service = true ∧ s.tb.state = .locked ∧ s.tb.selected = some (.port 3) ∧
      s.tb.candidates[(3 : PortIx)] ≠ none ∧ s.tb.refinActive = false ∧ s.eligible .refin = none) ∧
    (let s := refinIn true .locked (some .refin)
     s.tb.selected = some .refin ∧ s.eligible .refin ≠ none ∧ s.tb.state = .locked) := by decide +kernel

/-- LOCKED on port 3 with port 2 a candidate as well: a hub restart withdraws both at once and leaves HOLDOVER. -/
theorem test_restart_ends_in_holdover :
    Runs (exec (.restartHub .service 9 [] 0) (modTb (fun t => { t with
        candidates := t.candidates.set 2 (some ⟨1, 1⟩), trim := 7, savedTrim := 5 })
      (modPort 2 (fun x => { x with state := .active }) (clocked .locked (some (.port 3)) (hub .active))))) (fun t =>
      t.tb.state = .holdover ∧ t.tb.trim = 5 ∧ t.tb.selected = none) := ⟨_, rfl, by decide +kernel⟩

/-- The service port within a FETCH. -/
def fetching (live : Bool) (q : OriginState) : State :=
  { State.reset with service := ⟨q, 3, .fetching 3 [1, 2] live⟩ }

theorem witness_ServicePort :
    (State.reset.atRest = false ∧ State.reset.service.transaction = .idle ∧ (0x99 : Byte) ≠ 0xA5 ∧ (0x99 : Byte) ≠ 0x5A ∧
      (List.replicate 279 (0 : Byte)).length ≤ 279 ∧ (0x1234 : BitVec 16) ≠ crc16 (0x41 :: (be 2 2 ++ [1, 2])) ∧
      34 < (List.replicate 35 (0 : Byte)).length ∧ (List.replicate 4 (0 : Byte)).length ≤ 4 ∧
      0x1A < (0x1B : Byte).toNat ∧ State.reset.slotFree .service = true ∧
      (List.replicate 6 (0 : Byte)).length < (5 : BitVec 16).toNat + 2 ∧
      (List.replicate 7 (0 : Byte)).length = (5 : BitVec 16).toNat + 2) ∧
    (State.reset.service.origin.queue = []) ∧
    ((fetching true (queueOf ease)).service.transaction = .fetching 3 [1, 2] true ∧
      (fetching true (queueOf ease)).service.origin.queue = ease :: []) ∧
    ((fetching false (queueOf ease)).service.transaction = .fetching 3 [1, 2] false) ∧
    ((fetching true behindBusy).service.origin.queue = .reply false 6 4 .busy [] :: [ease] ∧
      behindBusy.slot = some ⟨5, 9, some (.done, [])⟩ ∧ [ease].all (fun x => !x.isReply) = true) ∧
    ({ State.reset.service.origin with queue := [.reply true 1 2 .done []] } : OriginState).queue
      = .reply true 1 2 .done [] :: [] := by decide +kernel

end Sys2Proof.Tests
end

section
namespace Sys2Proof.Machine

/-! ### Entries of a vector under an index -/

/-- An entry after a write at an index. -/
theorem vget_set {α : Type} {n : Nat} (v : Vector α n) (i j : Fin n) (x : α) :
    (v.set i x)[j] = if j = i then x else v[j] := by
  simp only [Fin.getElem_fin, Vector.getElem_set, Fin.ext_iff, eq_comm]

theorem vset_self {α : Type} {n : Nat} (v : Vector α n) (i : Fin n) : v.set i v[i] = v := by
  refine Vector.ext fun j hj => ?_
  simp only [Vector.getElem_set, Fin.getElem_fin]
  split
  · subst_vars; rfl
  · rfl

/-- Two writes to one port are one. -/
theorem modPort_modPort (p : PortIx) (g f : Port → Port) (s : State) :
    modPort p g (modPort p f s) = modPort p (fun x => g (f x)) s := by
  simp [modPort, Vector.set_set]

theorem modPort_congr {p : PortIx} {f g : Port → Port} {s : State} (h : f s.ports[p] = g s.ports[p]) :
    modPort p f s = modPort p g s := by
  simp only [modPort, h]

theorem modPort_id {p : PortIx} {f : Port → Port} {s : State} (h : f s.ports[p] = s.ports[p]) : modPort p f s = s := by
  simp only [modPort, h, vset_self]

/-! ### Events that end quietly -/

/-- An event that leaves streams, origins and drain sets, brings no port to LEAVING and posts nothing ends as it is. -/
theorem finish_untouched {s t : State} (hs : t.streams = s.streams) (hr : t.tb.selected = s.tb.selected)
    (hp : ∀ q : PortIx, (t.ports[q]).state = .leaving → (s.ports[q]).state = .leaving)
    (hd : t.drainSets = s.drainSets) (ho : t.origins = s.origins) (hx : t.posts = []) : finish s t = t := by
  refine finish_quiet (sameFifos_of_eq hs) hr (fun q hq => ?_) hx
  simp only [State.mayPark, hd, ho, Bool.and_eq_true, beq_iff_eq] at hq ⊢
  obtain ⟨⟨hq, hd'⟩, ho'⟩ := hq
  exact ⟨⟨hp q hq, hd'⟩, ho'⟩

/-- The ports of a state after a write to one of them. -/
theorem modPort_port (p q : PortIx) (f : Port → Port) (s : State) :
    (modPort p f s).ports[q] = if q = p then f s.ports[p] else s.ports[q] := vget_set ..

/-- A write to a port that keeps its state keeps the state of every port. -/
theorem modPort_state {p : PortIx} {f : Port → Port} {s : State} (h : (f s.ports[p]).state = (s.ports[p]).state)
    (q : PortIx) : ((modPort p f s).ports[q]).state = (s.ports[q]).state := by
  rw [modPort_port]
  split
  · subst_vars; exact h
  · rfl

/-! ### What a received symbol leaves (R1, R8, R64) -/

section
variable (p : PortIx) (f : Fraction) (s : State)

/-- The port after a received symbol. -/
theorem symbolTaken_ports : (symbolTaken p f s).ports = s.ports.set p { s.ports[p] with
    silenceSince := s.clock.cycle, lastReceived := (opened f s).now } := by
  unfold symbolTaken; split <;> rfl

theorem symbolTaken_port (q : PortIx) : (symbolTaken p f s).ports[q] =
    if q = p then { s.ports[p] with silenceSince := s.clock.cycle, lastReceived := (opened f s).now }
    else s.ports[q] := by
  rw [symbolTaken_ports, vget_set]

theorem symbolTaken_self : (symbolTaken p f s).ports[p] =
    { s.ports[p] with silenceSince := s.clock.cycle, lastReceived := (opened f s).now } := by
  rw [symbolTaken_port, if_pos rfl]

theorem symbolTaken_state (q : PortIx) : ((symbolTaken p f s).ports[q]).state = (s.ports[q]).state := by
  rw [symbolTaken_port]; split
  · subst_vars; rfl
  · rfl

@[simp] theorem symbolTaken_streams : (symbolTaken p f s).streams = s.streams := by unfold symbolTaken; split <;> rfl
@[simp] theorem symbolTaken_origins : (symbolTaken p f s).origins = s.origins := by unfold symbolTaken; split <;> rfl
@[simp] theorem symbolTaken_drainSets : (symbolTaken p f s).drainSets = s.drainSets := by unfold symbolTaken; split <;> rfl
@[simp] theorem symbolTaken_posts : (symbolTaken p f s).posts = [] := by unfold symbolTaken; split <;> rfl
@[simp] theorem symbolTaken_selected : (symbolTaken p f s).tb.selected = s.tb.selected := by
  unfold symbolTaken; split <;> rfl

end

/-- A received slot that is no comparison edge is counted for the reference alone (R64). -/
theorem countSlot_quiet {p : PortIx} {s : State} (h : s.noComparison p = true) :
    countSlot p s = if s.isReference (.port p) then modTb (fun t => { t with edges := t.edges + 1 }) s else s := by
  unfold countSlot
  by_cases hr : s.isReference (.port p) = true
  · have he : ¬ Config.slotsPerComparison ≤ s.tb.edges + 1 := by
      have : s.tb.edges + 1 < 2000 := by simpa [State.noComparison, hr] using h
      simp only [Config.slotsPerComparison]; omega
    simp only [hr, if_true, countEdge, he, if_false]
  · simp only [hr, Bool.false_eq_true, if_false]

/-- What every received symbol does before it is taken, while the framer runs (R1, R8, R64). -/
theorem countSlot_receipt {p : PortIx} {f : Fraction} {s : State} (h : s.noComparison p = true) :
    countSlot p (restartSilence p (recordReceipt p (at_ f (begin_ s)))) = symbolTaken p f s := by
  rw [countSlot_quiet (by exact h), recordReceipt_eq, restartSilence_eq, modPort_modPort]
  rfl

/-- A symbol received while the framer runs, at no comparison edge (R1, R4, R11). -/
theorem receiveSymbol_running {p : PortIx} {f : Fraction} {s : State} {symbol : Symbol}
    (hf : (s.ports[p]).state.framerRuns = true) (h : s.noComparison p = true) :
    receiveSymbol p symbol f (begin_ s) = match symbol with
      | .hold => takeHold p (symbolTaken p f s)
      | .go => takeGo p (symbolTaken p f s)
      | _ => takeFramer p symbol (symbolTaken p f s) := by
  have hst : ((recordReceipt p (at_ f (begin_ s))).ports[p]).state = (s.ports[p]).state := modPort_state rfl p
  unfold receiveSymbol
  simp only [hst, hf, if_true, countSlot_receipt h]
  cases symbol <;> rfl

/-- An event that only writes the receiving port, which stays in its state, ends as it is. -/
theorem finish_symbol {p : PortIx} {f : Fraction} {s : State} {g : Port → Port}
    (hg : ∀ x, (g x).state = x.state) :
    finish s (modPort p g (symbolTaken p f s)) = modPort p g (symbolTaken p f s) :=
  finish_untouched (by simp) (by simp) (fun q hq => by rwa [modPort_state (hg _), symbolTaken_state] at hq)
    (by simp) (by simp) (by simp)

theorem finish_symbolTaken (p : PortIx) (f : Fraction) (s : State) :
    finish s (symbolTaken p f s) = symbolTaken p f s := by
  have h := finish_symbol (p := p) (f := f) (s := s) (g := id) (fun _ => rfl)
  rwa [modPort_id rfl] at h

/-! ### HOLD and GO (R11) -/

section
variable {p : PortIx} {s : State}

theorem takeHold_held (ha : (s.ports[p]).state = .active) (hh : (s.ports[p]).held = false) :
    takeHold p s = modPort p (fun x => { x with
      held := true, holdBeats := 0, counters := { x.counters with holds := satAdd x.counters.holds 1 } }) s := by
  unfold takeHold
  simp only [ha, hh, Bool.not_false, and_self, if_true, countPort, modPort_modPort]

theorem takeHold_ignored (h : (s.ports[p]).state ≠ .active ∨ (s.ports[p]).held = true) : takeHold p s = s := by
  unfold takeHold
  refine if_neg fun ⟨ha, hh⟩ => ?_
  rcases h with h | h
  · exact h ha
  · simp [-Fin.getElem_fin, h] at hh

theorem takeGo_released (ha : (s.ports[p]).state = .active) (hh : (s.ports[p]).held = true) :
    takeGo p s = modPort p (fun x => { x with held := false, holdBeats := 0 }) s := if_pos ⟨ha, hh⟩

theorem takeGo_ignored (h : (s.ports[p]).state ≠ .active ∨ (s.ports[p]).held = false) : takeGo p s = s := by
  unfold takeGo
  refine if_neg fun ⟨ha, hh⟩ => ?_
  rcases h with h | h
  · exact h ha
  · simp [-Fin.getElem_fin, h] at hh

end

theorem exec_hold (p : PortIx) (f : Fraction) (s : State) : exec (.hold p f) s = event (receiveSymbol p .hold f) s := rfl
theorem exec_go (p : PortIx) (f : Fraction) (s : State) : exec (.go p f) s = event (receiveSymbol p .go f) s := rfl
theorem exec_receivedSymbol (p : PortIx) (x : Symbol) (f : Fraction) (s : State) :
    exec (.receivedSymbol p x f) s = event (receiveSymbol p x f) s := rfl

/-- Settles O20: each flow symbol is its own command, and is taken on the state that every received symbol leaves. -/
theorem holdAndGo : Obligations.HoldAndGo := by
  intro p f s hrest hf hn
  have hport := symbolTaken_self p f s
  refine ⟨rfl, rfl, fun ha hh => ?_, fun h => ?_, fun ha hh => ?_, fun h => ?_⟩
  · rw [exec_hold, event_running hrest, receiveSymbol_running hf hn]
    simp only []
    rw [takeHold_held (by rw [hport]; exact ha) (by rw [hport]; exact hh), finish_symbol fun _ => by rfl]
  · rw [exec_hold, event_running hrest, receiveSymbol_running hf hn]
    simp only []
    rw [takeHold_ignored (by rw [hport]; exact h), finish_symbolTaken]
  · rw [exec_go, event_running hrest, receiveSymbol_running hf hn]
    simp only []
    rw [takeGo_released (by rw [hport]; exact ha) (by rw [hport]; exact hh), finish_symbol fun _ => by rfl]
  · rw [exec_go, event_running hrest, receiveSymbol_running hf hn]
    simp only []
    rw [takeGo_ignored (by rw [hport]; exact h), finish_symbolTaken]

end Sys2Proof.Machine
end

section
namespace Sys2Proof.Machine

/-! ### Events that post one notice -/

/-- A single notice is placed at its origin. -/
theorem flush_notice {o : Origin} {k : NoticeKind} {b : List Byte} {s : State} (hr : s.restarting = false)
    (hx : s.posts = [⟨o, .notice k b⟩]) : flush s = noticed o k b { s with posts := [] } := by
  unfold flush
  simp only [hr, hx, Bool.false_eq_true, if_false]
  cases k <;> rfl

/-- A single reply is placed at its origin. -/
theorem flush_reply {o : Origin} {s : State} (hr : s.restarting = false)
    (hx : s.posts = [⟨o, .reply⟩]) : flush s = modOrigin o .placeReply { s with posts := [] } := by
  unfold flush
  simp only [hr, hx, Bool.false_eq_true, if_false]
  rfl

/-- Parking asks for nothing new where streams, drain sets and origins stand and no port has come to LEAVING. -/
theorem mayPark_of {s t : State} {q : PortIx} (hp : (t.ports[q]).state = .leaving → (s.ports[q]).state = .leaving)
    (hd : t.drainSets = s.drainSets) (ho : t.origins = s.origins) (h : t.mayPark q = true) : s.mayPark q = true := by
  simp only [State.mayPark, hd, ho, Bool.and_eq_true, beq_iff_eq] at h ⊢
  obtain ⟨⟨hq, hd'⟩, ho'⟩ := h
  exact ⟨⟨hp hq, hd'⟩, ho'⟩

/-- An event that leaves streams, origins and drain sets, brings no port to LEAVING and posts one notice ends with that
notice placed. -/
theorem finish_notice {o : Origin} {k : NoticeKind} {b : List Byte} {s t : State} (hs : t.streams = s.streams)
    (hr : t.tb.selected = s.tb.selected)
    (hp : ∀ q : PortIx, (t.ports[q]).state = .leaving → (s.ports[q]).state = .leaving)
    (hd : t.drainSets = s.drainSets) (ho : t.origins = s.origins) (hres : t.restarting = false)
    (hx : t.posts = [⟨o, .notice k b⟩]) : finish s t = noticed o k b { t with posts := [] } := by
  rw [finish_flush (sameFifos_of_eq hs) hr fun q => mayPark_of (hp q) hd ho, flush_notice hres hx]

/-! ### Symbols in LISTENING and where the framer is stopped (R1, R8, R20, R21) -/

section
variable {p : PortIx} {f : Fraction} {s : State} {symbol : Symbol}

/-- Where the framer is stopped and the port does not listen, only the receive time is recorded (R1). -/
theorem receiveSymbol_stopped (hf : (s.ports[p]).state.framerRuns = false) (hl : (s.ports[p]).state ≠ .listening) :
    receiveSymbol p symbol f (begin_ s) =
      modPort p (fun x => { x with lastReceived := (opened f s).now }) (opened f s) := by
  have hst : ((recordReceipt p (at_ f (begin_ s))).ports[p]).state = (s.ports[p]).state := modPort_state rfl p
  unfold receiveSymbol
  simp only [hst, hf, Bool.false_eq_true, if_false, hl]
  rfl

/-- In LISTENING a symbol restarts the silence measurement and counts for the fill run (R8, R20). -/
theorem receiveSymbol_listening (hl : (s.ports[p]).state = .listening) :
    receiveSymbol p symbol f (begin_ s) = countFill p symbol (modPort p (fun x => { x with
      silenceSince := s.clock.cycle }) (modPort p (fun x => { x with lastReceived := (opened f s).now }) (opened f s))) := by
  have hst : ((recordReceipt p (at_ f (begin_ s))).ports[p]).state = .listening := (modPort_state rfl p).trans hl
  unfold receiveSymbol
  simp only [hst, PortState.framerRuns, Bool.false_eq_true, if_false, if_true]
  rfl

end

section
variable {p : PortIx} {s : State}

/-- A reset of the fill run, with the listen restart that it counts (R20). -/
theorem resetFillRun_eq (p : PortIx) (s : State) : resetFillRun p s = modPort p (fun x => { x with
    fillRun := 0
    counters := if 1 ≤ x.fillRun then { x.counters with listenRestarts := satAdd x.counters.listenRestarts 1 }
      else x.counters }) s := by
  unfold resetFillRun
  by_cases h : 1 ≤ (s.ports[p]).fillRun
  · simp only [h, if_true, countPort, modPort_modPort]
    exact modPort_congr (by simp only [h, if_true])
  · simp only [h, if_false]
    exact modPort_congr (by simp only [h, if_false])

theorem countFill_other {symbol : Symbol} (h : symbol ≠ .fill) : countFill p symbol s = resetFillRun p s := if_neg h

theorem countFill_below (h : (s.ports[p]).fillRun + 1 < 64) :
    countFill p .fill s = modPort p (fun x => { x with fillRun := x.fillRun + 1 }) s := by
  have : ¬ Config.fillRunLimit ≤ (s.ports[p]).fillRun + 1 := by simp only [Config.fillRunLimit]; omega
  simp only [countFill, if_true, this, if_false]
  exact modPort_congr rfl

/-- The fill run that starts a training (R21, R50). -/
theorem countFill_trains (hl : (s.ports[p]).state = .listening) (h : 64 ≤ (s.ports[p]).fillRun + 1) :
    countFill p .fill s = (s
      |> modPort p (fun x => { x with
          fillRun := x.fillRun + 1, state := .training, framer := ⟨.outside, []⟩, score := 0
          silenceSince := s.clock.cycle })
      |> modDelay p (fun d => { d with due := some (.training 1), outstanding := none, training := some ⟨1, []⟩ })
      |> postNotice .service .portEvent
          (portEventFields p .listening .training .fillRun (s.ports[p]).frame)) := by
  have : Config.fillRunLimit ≤ (s.ports[p]).fillRun + 1 := h
  simp only [countFill, if_true, this, moveTo, enterState, postPortEvent, postNotice]
  have hset : ∀ (g : Port → Port) (t : State), (modPort p g t).ports[p] = g t.ports[p] := fun g t => by
    rw [modPort_port, if_pos rfl]
  rw [hset]
  simp only [hl]
  simp only [modPort, modDelay, post, Vector.set_set, vget_set, if_true, Framer.empty]

end

/-- Settles O19, port state by port state; in LISTENING by the symbol and the length of the fill run. -/
theorem symbolsOutsideService : Obligations.SymbolsOutsideService := by
  intro p symbol f s hs
  obtain ⟨hrest, hres⟩ : s.atRest = false ∧ s.restarting = false := by simpa [State.inService] using hs
  intro x v u
  have hv : ∀ q : PortIx, (v.ports[q]).state = (s.ports[q]).state := modPort_state (s := opened f s) rfl
  have hu : ∀ q : PortIx, (u.ports[q]).state = (s.ports[q]).state := fun q => (modPort_state rfl q).trans (hv q)
  have hux : (u.ports[p]).fillRun = x.fillRun := by
    simp only [u, v, modPort_port, if_true]; rfl
  have quiet : ∀ g : Port → Port, (∀ y, (g y).state = y.state) → finish s (modPort p g u) = modPort p g u := fun g hg =>
    finish_untouched rfl rfl (fun q hq => by rwa [modPort_state (hg _), hu] at hq) rfl rfl rfl
  refine ⟨fun h => ?_, fun hl hsym => ?_, fun hl hrun => ?_, fun hl hrun => ?_⟩ <;>
    rw [exec_receivedSymbol, event_running hrest]
  · rw [receiveSymbol_stopped (by rcases h with h | h | h <;> (rw [h]; rfl))
      (by rcases h with h | h | h <;> (rw [h]; decide))]
    exact congrArg _ (finish_untouched rfl rfl (fun q hq => by rwa [hv] at hq) rfl rfl rfl)
  · rw [receiveSymbol_listening hl, countFill_other hsym, resetFillRun_eq]
    exact congrArg _ (quiet _ fun _ => rfl)
  · rw [receiveSymbol_listening hl, countFill_below (hux ▸ hrun)]
    exact congrArg _ (quiet _ fun _ => rfl)
  · rw [receiveSymbol_listening hl, countFill_trains ((hu p).trans hl) (hux ▸ hrun)]
    refine congrArg Host.Outcome.next ((finish_notice (o := .service) (k := .portEvent)
      (b := portEventFields p .listening .training .fillRun (u.ports[p]).frame) ?_ ?_ ?_ ?_ ?_ ?_ ?_).trans ?_)
    any_goals rfl
    · intro q hq
      by_cases hqp : q = p
      · simp [-Fin.getElem_fin, postNotice, vget_set, hqp] at hq
      · simpa [-Fin.getElem_fin, postNotice, vget_set, hqp, hu] using hq
    · exact hres
    · simp only [u, v, modPort_modPort, modPort_port, if_true]
      rfl

end Sys2Proof.Machine
end

section
namespace Sys2Proof.Machine

/-! ### `each` where one index acts -/

/-- `each` over steps of which one alone changes anything. -/
theorem each_single {α : Type} {is : List α} {f : α → State → State} {s : State} {i : α} (hn : is.Nodup) (hi : i ∈ is)
    (h1 : ∀ j, j ≠ i → f j s = s) (h2 : ∀ j, j ≠ i → f j (f i s) = f i s) : each is f s = f i s := by
  obtain ⟨a, b, rfl⟩ := List.append_of_mem hi
  have hne : ∀ j ∈ a ++ b, j ≠ i := by
    rintro j hj rfl
    exact (List.nodup_cons.mp (List.nodup_middle.mp hn)).1 hj
  rw [each_append, each_cons, each_fixed fun j hj => h1 j (hne j (List.mem_append_left _ hj)),
    each_fixed fun j hj => h2 j (hne j (List.mem_append_right _ hj))]

theorem mem_allPorts (p : PortIx) : p ∈ allPorts := List.mem_finRange p
theorem nodup_allPorts : allPorts.Nodup := List.nodup_finRange 12
theorem mem_allStreams (st : StreamIx) : st ∈ allStreams := List.mem_finRange st
theorem nodup_allStreams : allStreams.Nodup := List.nodup_finRange 64

/-! ### The boundary of a free transmitter (R6, R13) -/

section
variable {want : Pick → Bool} {p : PortIx} {second : Bool} {s : State} {k : Pick}

/-- A free transmitter launches what the arbiter picks, where it is of the wanted kind. -/
theorem boundary_launches (hf : s.isFree p second = true) (hk : s.pick p = some k) (hw : want k = true) :
    boundary want p second (begin_ s) =
      launch p (s.slotNumber second) k (opened (slotFraction second) s) := by
  have hf' : (at_ (slotFraction second) (begin_ s)).isFree p second = true := hf
  have hk' : (at_ (slotFraction second) (begin_ s)).pick p = some k := hk
  simp only [boundary, hf', hk', hw, if_true]
  rfl

/-- A busy transmitter, or an arbiter with nothing to send, leaves the state (R6). -/
theorem boundary_idle (h : s.isFree p second = false ∨ s.pick p = none) :
    boundary want p second (begin_ s) = opened (slotFraction second) s := by
  have hfe : (at_ (slotFraction second) (begin_ s)).isFree p second = s.isFree p second := rfl
  have hke : (at_ (slotFraction second) (begin_ s)).pick p = s.pick p := rfl
  simp only [boundary, hfe, hke]
  rcases h with h | h
  · rw [h]; rfl
  · rw [h]; split <;> rfl

/-- What kinds are wanted matters only for what is picked. -/
theorem boundary_congr {want' : Pick → Bool} (hk : s.pick p = some k) (hw : want k = true) (hw' : want' k = true) :
    boundary want p second (begin_ s) = boundary want' p second (begin_ s) := by
  cases hf : s.isFree p second with
  | true => rw [boundary_launches hf hk hw, boundary_launches hf hk hw']
  | false => rw [boundary_idle (.inl hf), boundary_idle (.inl hf)]

end

/-- Settles O23: the wanted kinds of a launch command take in what the arbiter picked. -/
theorem freeBoundaryChoice : Obligations.FreeBoundaryChoice := by
  intro p second s hrest u
  have key : ∀ (want : Pick → Bool) (k : Pick), s.pick p = some k → want k = true →
      event (boundary (fun _ => true) p second) s = event (boundary want p second) s := by
    intro want k hk hw
    rw [event_running hrest, event_running hrest, boundary_congr hk rfl hw]
  refine ⟨fun h => ?_, fun n h => key Pick.isBeat _ h rfl, fun x h => key Pick.isEcho _ h rfl,
    fun c h => key Pick.isTrigger _ h rfl, fun e h => key Pick.isEntry _ h rfl, fun t h => key Pick.isSamples _ h rfl⟩
  have hx : exec (.freeBoundary p second) s = event (boundary (fun _ => true) p second) s := rfl
  rw [hx, event_running hrest, boundary_idle h]
  exact congrArg Host.Outcome.next (finish_untouched rfl rfl (fun _ hq => hq) rfl rfl rfl)

/-! ### What the arbiter picks (R12, R13) -/

section
variable {p : PortIx} {s : State}

theorem pick_beat {n : Beat} (hst : (s.ports[p]).state = .active ∨ (s.ports[p]).state = .leaving)
    (hb : (s.egress[p]).dueBeat = some n) : s.pick p = some (.beat n) := by
  unfold State.pick
  rcases hst with hst | hst <;> simp only [hst, State.pickBeat, hb, Option.map_some, Option.some_or]

theorem pick_echo {x : Purpose}
    (hst : (s.ports[p]).state = .training ∨ (s.ports[p]).state = .active ∧ (s.egress[p]).dueBeat = none)
    (hx : (s.delays[p]).due = some x) : s.pick p = some (.echo x) := by
  unfold State.pick
  rcases hst with hst | ⟨hst, hb⟩
  · simp only [hst, State.pickEcho, hx, Option.map_some]
  · simp only [hst, State.pickBeat, hb, State.pickEcho, hx, Option.map_some, Option.map_none, Option.none_or,
      Option.some_or]

/-- On an ACTIVE port without a due beat and a due echo the trigger queue comes next (R13). -/
theorem pick_active (hst : (s.ports[p]).state = .active) (hb : (s.egress[p]).dueBeat = none)
    (hd : (s.delays[p]).due = none) :
    s.pick p = (s.pickTrigger p).or ((s.pickEntry p).or (s.pickSamples p)) := by
  unfold State.pick
  simp only [hst, State.pickBeat, hb, State.pickEcho, hd, Option.map_none, Option.none_or]

theorem pickTrigger_cons {c : TriggerCopy} {cs : List TriggerCopy} (h : (s.triggers[p]).copies = c :: cs) :
    s.pickTrigger p = some (.trigger c) := by
  simp only [State.pickTrigger, h, List.head?_cons, Option.map_some]

theorem pickTrigger_nil (h : (s.triggers[p]).copies = []) : s.pickTrigger p = none := by
  simp only [State.pickTrigger, h, List.head?_nil, Option.map_none]

theorem pickEntry_cons {q : OriginState} {e : Entry} {rest : List Entry} (ho : s.origins[p] = some q)
    (hq : q.queue = e :: rest) : s.pickEntry p = some (.entry e) := by
  simp only [State.pickEntry, ho, Option.bind_some, hq, List.head?_cons, Option.map_some]

theorem pickEntry_nil (h : ∀ q, s.origins[p] = some q → q.queue = []) : s.pickEntry p = none := by
  unfold State.pickEntry
  cases ho : s.origins[p] with
  | none => rfl
  | some q => simp only [Option.bind_some, h q ho, List.head?_nil, Option.map_none]

/-- The head of the notice/reply queue goes where nothing stands before it (R12, R13, R15). -/
theorem pick_entry {q : OriginState} {e : Entry} {rest : List Entry} (ho : s.origins[p] = some q)
    (hq : q.queue = e :: rest)
    (hst : (s.ports[p]).state = .joining ∨ (s.ports[p]).state = .admitted ∨
      ((s.ports[p]).state = .leaving ∧ (s.egress[p]).dueBeat = none) ∨
      ((s.ports[p]).state = .active ∧ (s.egress[p]).dueBeat = none ∧ (s.delays[p]).due = none ∧
        (s.triggers[p]).copies = [])) : s.pick p = some (.entry e) := by
  rcases hst with hst | hst | ⟨hst, hb⟩ | ⟨hst, hb, hd, ht⟩
  · simp only [State.pick, hst, pickEntry_cons ho hq]
  · simp only [State.pick, hst, pickEntry_cons ho hq]
  · simp only [State.pick, hst, State.pickBeat, hb, Option.map_none, Option.none_or, pickEntry_cons ho hq]
  · rw [pick_active hst hb hd, pickTrigger_nil ht, pickEntry_cons ho hq]; rfl

end

/-! ### Urgent launches (R14, R45, R80, R147) -/

theorem modLine_id {l : LineIx} {f : Line → Line} {s : State} (h : f s.lines[l] = s.lines[l]) : modLine l f s = s := by
  simp only [modLine, h, vset_self]

/-- The line's late counter rises where the launched copy is late (R147). -/
theorem countLate_if (late : Bool) (l : LineIx) (s : State) :
    (if late then countLate l s else s) = modLine l (fun x => { x with late := if late then satAdd x.late 1 else x.late }) s := by
  cases late
  · exact (modLine_id rfl).symm
  · rfl

/-- Settles O24: each launch is what the arbiter picks at the boundary, and its event ends as it is. -/
theorem urgentLaunches : Obligations.UrgentLaunches := by
  refine ⟨fun p second s n hrest hf hst hb => ?_, fun p second s x hrest hf hst hx => ?_,
    fun p second s c cs hrest hf hst hb hd hc => ?_⟩
  · have hx : exec (.beatLaunch p second) s = event (boundary Pick.isBeat p second) s := rfl
    rw [hx, event_running hrest, boundary_launches hf (pick_beat hst hb) rfl]
    exact congrArg Host.Outcome.next (finish_untouched rfl rfl (fun _ hq => hq) rfl rfl rfl)
  · have hx' : exec (.echoLaunch p second) s = event (boundary Pick.isEcho p second) s := rfl
    rw [hx', event_running hrest, boundary_launches hf (pick_echo hst hx) rfl]
    exact congrArg Host.Outcome.next (finish_untouched rfl rfl (fun _ hq => hq) rfl rfl rfl)
  · have hx : exec (.triggerLaunch p second) s = event (boundary Pick.isTrigger p second) s := rfl
    have hpick : s.pick p = some (.trigger c) := by rw [pick_active hst hb hd, pickTrigger_cons hc]; rfl
    intro u late flags body
    have hlaunch : launch p (s.slotNumber second) (.trigger c) u = (launched p second .plain (parcel 0x31 body) u
        |> modTriggers p (fun q => { q with copies := cs })
        |> modLine c.line (fun x => { x with late := if late then satAdd x.late 1 else x.late })) := by
      have hq : modTriggers p (fun q => { q with copies := q.copies.tail }) (launched p second .plain (parcel 0x31 body) u) =
          modTriggers p (fun q => { q with copies := cs }) (launched p second .plain (parcel 0x31 body) u) := by
        have hc' : ((launched p second .plain (parcel 0x31 body) u).triggers[p]).copies = c :: cs := hc
        simp only [modTriggers, hc', List.tail_cons]
      rw [← countLate_if, ← hq]
      rfl
    rw [hx, event_running hrest, boundary_launches hf hpick rfl, hlaunch]
    exact congrArg Host.Outcome.next (finish_untouched rfl rfl (fun _ hq => hq) rfl rfl rfl)

end Sys2Proof.Machine
end

section
namespace Sys2Proof.Machine

/-! ### Launches from the notice/reply queue (R15, R33, R156, R157) -/

/-- Placing a reply held in the slot behind entries that are no replies. -/
theorem placeReply_held {q : OriginState} {i c : Byte} {r : ResultCode} {b : List Byte}
    (hs : q.slot = some ⟨i, c, some (r, b)⟩) (hq : q.queue.all (fun x => !x.isReply) = true) :
    q.placeReply = { q with queue := q.queue ++ [.reply true i c r b] } := by
  have hr : q.hasReply = false := by
    simp only [OriginState.hasReply, List.any_eq_false]
    intro e he
    simpa using List.all_eq_true.mp hq e he
  simp only [OriginState.placeReply, hs, hr, Bool.false_eq_true, if_false]

/-- No reply waits in a slot that is empty or RUNNING. -/
theorem placeReply_none {q : OriginState} (h : q.slot = none ∨ ∃ i c, q.slot = some ⟨i, c, none⟩) : q.placeReply = q := by
  rcases h with h | ⟨i, c, h⟩ <;> simp only [OriginState.placeReply, h]

/-- A state in which the queue of one port has been replaced. -/
def State.withOrigin (s : State) (p : PortIx) (q : OriginState) : State := { s with origins := s.origins.set p (some q) }

theorem withOrigin_origin (s : State) (p r : PortIx) (q : OriginState) :
    (s.withOrigin p q).origins[r] = if r = p then some q else s.origins[r] := vget_set ..

theorem modOrigin_withOrigin (s : State) (p : PortIx) (q : OriginState) (f : OriginState → OriginState) :
    modOrigin (.port p) f (s.withOrigin p q) = s.withOrigin p (f q) := by
  have ho := withOrigin_origin s p p q
  rw [if_pos rfl] at ho
  simp only [modOrigin, ho, Option.map_some]
  simp only [State.withOrigin, Vector.set_set]

/-- A port whose queue is not replaced asks for parking as before. -/
theorem mayPark_withOrigin_ne {s : State} {p r : PortIx} (q : OriginState) (h : r ≠ p) :
    (s.withOrigin p q).mayPark r = s.mayPark r := by
  have ho := withOrigin_origin s p r q
  rw [if_neg h] at ho
  simp only [State.mayPark, ho]
  rfl

theorem mayPark_withOrigin_self (s : State) (p : PortIx) (q : OriginState) :
    (s.withOrigin p q).mayPark p =
      ((s.ports[p]).state == .leaving && (s.drainSets[p]).isEmpty && (q.queue.isEmpty && !q.closed)) := by
  have ho := withOrigin_origin s p p q
  rw [if_pos rfl] at ho
  simp only [State.mayPark, ho]
  rfl

/-- Only one port comes to park, and only its FAREWELL is queued (R33). -/
theorem queueFarewells_single {s0 s : State} {p : PortIx} (h0 : s0.mayPark p = false)
    (h : ∀ r, r ≠ p → s.mayPark r = true → s0.mayPark r = true) : queueFarewells s0 s = queueFarewell p s := by
  have hother : ∀ r, r ≠ p → ∀ t : State, t.mayPark r = s.mayPark r →
      (if s0.mayPark r = true then t else queueFarewell r t) = t := by
    intro r hr t ht
    by_cases hp : s0.mayPark r = true
    · rw [if_pos hp]
    · have : ¬ t.mayPark r = true := fun e => hp (h r hr (ht ▸ e))
      rw [if_neg hp, queueFarewell, if_neg this]
  have hq : ∀ r, r ≠ p → (queueFarewell p s).mayPark r = s.mayPark r := by
    intro r hr
    unfold queueFarewell
    split
    · simp only [State.mayPark, modOrigin, vget_set, hr, if_false]
    · rfl
  have hself : (if s0.mayPark p = true then s else queueFarewell p s) = queueFarewell p s := by
    rw [if_neg (by simp [h0])]
  unfold queueFarewells
  rw [each_single nodup_allPorts (mem_allPorts p) (fun r hr => hother r hr s rfl)]
  · exact hself
  · intro r hr
    rw [hself]
    exact hother r hr _ (hq r hr)

section
variable {p : PortIx} {second : Bool} {s : State} {q : OriginState} {e : Entry} {rest : List Entry}

/-- What the launch of the head of a port's queue leaves before the event's end. -/
theorem launchEntry_eq (ho : s.origins[p] = some q) :
    launch p (s.slotNumber second) (.entry e) (opened (slotFraction second) s) =
      (launched p second (if e.isFarewell then .farewell else .plain) e.bytes (opened (slotFraction second) s)).withOrigin p
        q.pop := by
  have ho' : (launched p second (if e.isFarewell then .farewell else .plain) e.bytes
      (opened (slotFraction second) s)).origins[p] = some q := ho
  have hl : launch p (s.slotNumber second) (.entry e) (opened (slotFraction second) s) = modOrigin (.port p) .pop
      (launched p second (if e.isFarewell then .farewell else .plain) e.bytes (opened (slotFraction second) s)) := rfl
  rw [hl]
  simp only [modOrigin, ho', Option.map_some]
  rfl

/-- The launch command runs to the queue without its head, where no port comes to park by it. -/
theorem noticeReplyLaunch_quiet (hrest : s.atRest = false) (hf : s.isFree p second = true)
    (ho : s.origins[p] = some q) (hk : s.pick p = some (.entry e))
    (hp : (s.ports[p]).state = .leaving → s.drainSets[p] = [] → q.pop.queue = [] → q.pop.closed = true) :
    exec (.noticeReplyLaunch p second) s = .next ((launched p second (if e.isFarewell then .farewell else .plain) e.bytes
      (opened (slotFraction second) s)).withOrigin p q.pop) := by
  have hx : exec (.noticeReplyLaunch p second) s = event (boundary Pick.isEntry p second) s := rfl
  rw [hx, event_running hrest, boundary_launches hf hk rfl, launchEntry_eq ho]
  refine congrArg Host.Outcome.next (finish_quiet (sameFifos_of_eq rfl) rfl (fun r hr => ?_) rfl)
  by_cases hrp : r = p
  · subst hrp
    rw [mayPark_withOrigin_self] at hr
    simp only [Bool.and_eq_true, beq_iff_eq, List.isEmpty_iff, Bool.not_eq_true'] at hr
    obtain ⟨⟨h1, h2⟩, h3, h4⟩ := hr
    exact absurd (hp h1 h2 h3) (by simp [h4])
  · rw [mayPark_withOrigin_ne _ hrp] at hr
    exact hr

/-- The launch that empties the queue of a LEAVING port whose streams have drained queues its FAREWELL (R33, R159). -/
theorem noticeReplyLaunch_last (hrest : s.atRest = false) (hf : s.isFree p second = true)
    (ho : s.origins[p] = some q) (hk : s.pick p = some (.entry e)) (hst : (s.ports[p]).state = .leaving)
    (hd : s.drainSets[p] = []) (hq : q.queue ≠ []) (hpop : q.pop.queue = []) (hc : q.pop.closed = false) :
    exec (.noticeReplyLaunch p second) s = .next ((launched p second (if e.isFarewell then .farewell else .plain) e.bytes
      (opened (slotFraction second) s)).withOrigin p ⟨q.pop.slot, [.notice .farewell q.pop.lost []], 0, true⟩) := by
  have hx : exec (.noticeReplyLaunch p second) s = event (boundary Pick.isEntry p second) s := rfl
  rw [hx, event_running hrest, boundary_launches hf hk rfl, launchEntry_eq ho]
  generalize hu : launched p second (if e.isFarewell then .farewell else .plain) e.bytes
    (opened (slotFraction second) s) = u
  have hup : u.ports = s.ports := by subst hu; rfl
  have hud : u.drainSets = s.drainSets := by subst hu; rfl
  have hmay : (u.withOrigin p q.pop).mayPark p = true := by
    rw [mayPark_withOrigin_self, hup, hud]
    simp [-Fin.getElem_fin, hst, hd, hpop, hc]
  have h0 : s.mayPark p = false := by simp [-Fin.getElem_fin, State.mayPark, ho, hq]
  have hfin : finish s (u.withOrigin p q.pop) = queueFarewell p (u.withOrigin p q.pop) := by
    unfold finish
    rw [settleDrains_quiet (sameFifos_of_eq (by subst hu; rfl)), judgeAllEase_quiet (sameFifos_of_eq (by subst hu; rfl)),
      postRoles_quiet (by subst hu; rfl), flush_nil (by subst hu; rfl)]
    refine queueFarewells_single h0 fun r hr h => ?_
    rw [mayPark_withOrigin_ne _ hr] at h
    subst hu; exact h
  rw [hfin, queueFarewell, if_pos hmay]
  have hplace : q.pop.placeNotice .farewell [] = { q.pop with queue := [.notice .farewell q.pop.lost []], lost := 0 } := by
    simp [OriginState.placeNotice, hc, OriginState.notices, hpop, Config.noticePlaces]
  rw [modOrigin_withOrigin, hplace]

end

/-- Settles O25, by the kind of the launched head, and by whether a port comes to park with it. -/
theorem noticeReplyLaunch : Obligations.NoticeReplyLaunch := by
  refine ⟨fun p second s q e rest hrest hf ho hq hst => ?_, fun p second s q e hrest hf ho hq hst hb hd hc => ?_⟩
  · have hk : s.pick p = some (.entry e) := pick_entry ho hq (by
      rcases hst with h | h | ⟨h, hb, -⟩ | h
      · exact .inl h
      · exact .inr (.inl h)
      · exact .inr (.inr (.inl ⟨h, hb⟩))
      · exact .inr (.inr (.inr h)))
    have hpark : ∀ q' : OriginState, q'.closed = q.closed → (q'.queue = [] → rest = []) →
        (s.ports[p]).state = .leaving → s.drainSets[p] = [] → q'.queue = [] → q'.closed = true := by
      intro q' hcl hqu hl hdr hem
      rcases hst with h | h | ⟨-, -, h⟩ | ⟨h, -⟩
      · rw [h] at hl; cases hl
      · rw [h] at hl; cases hl
      · rcases h with h | h | h
        · exact absurd (hqu hem) h
        · exact absurd hdr h
        · rw [hcl, h]
      · rw [h] at hl; cases hl
    intro u left
    have run : ∀ q' : OriginState, q.pop = q' → q'.closed = q.closed → (q'.queue = [] → rest = []) →
        exec (.noticeReplyLaunch p second) s = .next (left q') := by
      rintro q' rfl hcl hqu
      exact noticeReplyLaunch_quiet hrest hf ho hk (hpark _ hcl hqu)
    refine ⟨?_, ?_, ?_, ?_⟩
    · rintro lost fields k rfl
      exact run _ (pop_notice hq) rfl id
    · rintro i c r b rfl
      exact run _ (pop_own hq) rfl id
    · rintro i c r b i' c' r' b' rfl hs hall
      exact run _ ((pop_busy hq).trans (placeReply_held hs hall)) rfl (fun h => by simp at h)
    · rintro i c r b rfl hs
      exact run _ ((pop_busy hq).trans (placeReply_none hs)) rfl id
  · have hk : s.pick p = some (.entry e) := pick_entry ho hq (.inr (.inr (.inl ⟨hst, hb⟩)))
    have hne : q.queue ≠ [] := by rw [hq]; simp
    intro u left
    refine ⟨?_, ?_, ?_⟩
    · rintro i c r b rfl
      have hpop := pop_own hq
      rw [noticeReplyLaunch_last hrest hf ho hk hst hd hne (by rw [hpop]) (by rw [hpop]; exact hc), hpop]
      rfl
    · rintro i c r b rfl hs
      have hpop := (pop_busy hq).trans (placeReply_none hs)
      rw [noticeReplyLaunch_last hrest hf ho hk hst hd hne (by rw [hpop]) (by rw [hpop]; exact hc), hpop]
      rfl
    · rintro i c r b i' c' r' b' rfl hs
      have hpop := (pop_busy hq).trans (placeReply_held hs rfl)
      rw [noticeReplyLaunch_quiet hrest hf ho hk (by rw [hpop]; simp), hpop]
      rfl

end Sys2Proof.Machine
end

section
namespace Sys2Proof.Machine

/-! ### The choice of sample service (R135, R136) -/

/-- The taps of a port with blocks pending are listed in increasing number. -/
theorem eligibleTaps_sorted (s : State) (p : PortIx) : (s.eligibleTaps p).Pairwise (· < ·) :=
  (List.pairwise_lt_finRange 128).sublist List.filter_sublist

/-- The smallest of a list and a bound is at or below `k` only with the bound and every entry. -/
theorem le_foldl_min {α : Type} (f : α → Nat) (l : List α) (n k : Nat) :
    k ≤ l.foldl (fun m t => min m (f t)) n ↔ k ≤ n ∧ ∀ t ∈ l, k ≤ f t := by
  induction l generalizing n with
  | nil => simp
  | cons x xs ih => simp only [List.foldl_cons, ih, List.mem_cons, forall_eq_or_imp, Nat.le_min, and_assoc]

/-- The choice after a pointer among taps in increasing number: the smallest above the pointer, or else the smallest. -/
theorem afterPointer_least {n : Nat} {ts : List TapIx} {t : TapIx} (hs : ts.Pairwise (· < ·))
    (h : afterPointer n ts = some t) (u : TapIx) (hu : u ∈ ts) :
    (n < t.val → n < u.val → t.val ≤ u.val) ∧ (t.val ≤ n → u.val ≤ n ∧ t.val ≤ u.val) := by
  unfold afterPointer at h
  split at h
  · rename_i x hx
    obtain rfl : x = t := by simpa using h
    obtain ⟨hlt, as, bs, rfl, hbefore⟩ := List.find?_eq_some_iff_append.mp hx
    have hlt : n < x.val := by simpa using hlt
    refine ⟨fun _ hnu => ?_, fun hle => by omega⟩
    rcases List.mem_append.mp hu with hu | hu
    · have : ¬ n < u.val := by simpa using hbefore u hu
      omega
    · rcases List.mem_cons.mp hu with rfl | hu
      · exact Nat.le_refl _
      · exact Nat.le_of_lt ((List.pairwise_cons.mp (List.pairwise_append.mp hs).2.1).1 u hu)
  · rename_i hx
    have hall : ∀ v ∈ ts, ¬ n < v.val := fun v hv => by simpa using List.find?_eq_none.mp hx v hv
    obtain ⟨ys, rfl⟩ := List.head?_eq_some_iff.mp h
    have htu : t.val ≤ u.val := by
      rcases List.mem_cons.mp hu with rfl | hu'
      · exact Nat.le_refl _
      · exact Nat.le_of_lt ((List.pairwise_cons.mp hs).1 u hu')
    have hun := hall u hu
    exact ⟨fun hnt => absurd hnt (hall t List.mem_cons_self), fun _ => ⟨by omega, htu⟩⟩

/-- The taps among which sample service takes its turn (R135, R136). -/
def State.turnTaps (s : State) (p : PortIx) : List TapIx :=
  if s.settings.ranked[p] then
    (s.eligibleTaps p).filter (fun t =>
      s.priorityOf t == (s.eligibleTaps p).foldl (fun m t => min m (s.priorityOf t)) 3)
  else s.eligibleTaps p

theorem chooseTap_eq (s : State) (p : PortIx) :
    s.chooseTap p = afterPointer (s.egress[p]).rotation (s.turnTaps p) := rfl

theorem turnTaps_sorted (s : State) (p : PortIx) : (s.turnTaps p).Pairwise (· < ·) := by
  unfold State.turnTaps
  split
  · exact (eligibleTaps_sorted s p).sublist List.filter_sublist
  · exact eligibleTaps_sorted s p

/-- Under RANKED only the taps of the lowest priority value take turns. -/
theorem mem_turnTaps (s : State) (p : PortIx) (u : TapIx) : u ∈ s.turnTaps p ↔ u ∈ s.eligibleTaps p ∧
    (s.settings.ranked[p] = true → ∀ v ∈ s.eligibleTaps p, s.priorityOf u ≤ min 3 (s.priorityOf v)) := by
  unfold State.turnTaps
  by_cases hr : s.settings.ranked[p] = true
  · simp only [hr, if_true, List.mem_filter, beq_iff_eq, true_imp_iff]
    refine and_congr_right fun hu => ?_
    have hk := le_foldl_min s.priorityOf (s.eligibleTaps p) 3
    have hself := (hk _).mp (Nat.le_refl _)
    constructor
    · intro h v hv
      have := hself.2 v hv
      omega
    · intro h
      have hup : s.priorityOf u ≤ (s.eligibleTaps p).foldl (fun m t => min m (s.priorityOf t)) 3 :=
        (hk _).mpr ⟨by have := h u hu; omega, fun v hv => by have := h v hv; omega⟩
      have := hself.2 u hu
      omega
  · simp only [hr, Bool.false_eq_true, if_false, false_imp_iff, and_true]

theorem sampleServiceChoice : Claims.SampleServiceChoice := by
  intro p s may
  have hmay : ∀ u, may u ↔ u ∈ s.turnTaps p := fun u => (mem_turnTaps s p u).symm
  rw [chooseTap_eq]
  refine ⟨fun h u hu => ?_, fun t h => ⟨(hmay t).mpr (afterPointer_mem h), fun u hu => ?_⟩⟩
  · have := (hmay u).mp hu
    rw [afterPointer_none.mp h] at this
    cases this
  · exact afterPointer_least (turnTaps_sorted s p) h u ((hmay u).mp hu)

/-! ### The launch of samples (R132) -/

theorem modTap_congr {t : TapIx} {f g : Tap → Tap} {s : State} {x : Tap} (hx : s.taps[t] = some x) (h : f x = g x) :
    modTap t f s = modTap t g s := by
  simp only [modTap, hx, Option.map_some, h]

theorem samplesFlags_eq (owed : Count) (b c d : Bool) :
    samplesFlags (owed != 0) b c d =
      (if owed = 0 then 0 else 1) + (if b then 2 else 0) + (if c then 4 else 0) + (if d then 8 else 0) := by
  by_cases h : owed = 0 <;> simp [samplesFlags, bit, h]

/-- The parcel of a block on a tap, field by field (Table 28). -/
theorem tapParcel_eq (x : Tap) (r : Stream) (k : Block) : x.parcel r k = parcel 0x21
    (x.tag :: (be 1 x.stream.val
      ++ be 1 ((if x.owed = 0 then 0 else 1) + (if k.slip then 2 else 0) + (if k.resumed then 4 else 0)
        + (if x.settings.reversed then 8 else 0))
      ++ be 1 r.width ++ be 2 x.sequence.toNat ++ be 2 k.sequence.toNat ++ be 2 x.owed.toNat ++ be 2 k.count.toNat
      ++ be 8 k.stamp.toNat ++ be 3 r.period
      ++ (if x.settings.reversed then reverseSamples r.width k.payload.length k.payload else k.payload))) := by
  rw [← samplesFlags_eq]
  rfl

theorem samplesLaunch : Claims.SamplesLaunch := by
  intro p second s t x r k bs hrest hf hst hheld hb hd ht hq hc hx hr hp hk flags payload body
  have hpick : s.pick p = some (.samples t) := by
    rw [pick_active hst hb hd, pickTrigger_nil ht, pickEntry_nil hq]
    simp only [State.pickSamples, hheld, Bool.false_eq_true, if_false, hc, Option.map_some, Option.none_or]
  have hhead : (opened (slotFraction second) s).headBlock t = some (x, r, k) := by
    have hx' : (opened (slotFraction second) s).taps[t] = some x := hx
    have hr' : (opened (slotFraction second) s).streams[x.stream] = some r := hr
    simp only [State.headBlock, hx', hr', hp, hk, Option.map_some]
  have he : exec (.samplesLaunch p second) s = event (boundary Pick.isSamples p second) s := rfl
  rw [he, event_running hrest, boundary_launches hf hpick rfl]
  have hl : launch p (s.slotNumber second) (.samples t) (opened (slotFraction second) s) =
      (launched p second (.samples x.stream k.number t) (parcel 0x21 body) (opened (slotFraction second) s)
        |> modEgress p (fun e => { e with rotation := t.val })
        |> modTap t (fun x => { x with
            pending := bs, inFlight := some k.number, sequence := x.sequence + 1, owed := 0 })) := by
    simp only [launch, launchSamples, hhead]
    rw [tapParcel_eq]
    exact modTap_congr (x := x) hx (by simp only [hp, List.tail_cons])
  rw [hl]
  exact congrArg Host.Outcome.next (finish_untouched rfl rfl (fun _ hq => hq) rfl rfl rfl)

/-! ### Reversed payloads (R133) -/

/-- The payload of `count` samples, with the bytes of each turned round; the bound only has to be large enough. -/
theorem reverseSamples_spec {width : Nat} (hw : 1 ≤ width) : ∀ (count n : Nat) (payload : List Byte), count ≤ n →
    payload.length = width * count →
    (reverseSamples width n payload).length = payload.length ∧ ∀ j i : Nat, j < count → i < width →
      (reverseSamples width n payload)[width * j + i]? = payload[width * j + (width - 1 - i)]? := by
  intro count
  induction count with
  | zero =>
    intro n payload _ hl
    obtain rfl : payload = [] := List.eq_nil_of_length_eq_zero (by simpa using hl)
    exact ⟨by cases n <;> rfl, fun j i hj => absurd hj (Nat.not_lt_zero j)⟩
  | succ count ih =>
    intro n payload hn hl
    obtain ⟨n, rfl⟩ : ∃ m, n = m + 1 := ⟨n - 1, by omega⟩
    obtain ⟨b, bs, rfl⟩ : ∃ b bs, payload = b :: bs := by
      cases payload with
      | nil => rw [Nat.mul_succ] at hl; simp at hl; omega
      | cons b bs => exact ⟨b, bs, rfl⟩
    have hw' : width ≤ (b :: bs).length := by rw [hl, Nat.mul_succ]; omega
    have htake : ((b :: bs).take width).reverse.length = width := by rw [List.length_reverse, List.length_take_of_le hw']
    have hdrop : ((b :: bs).drop width).length = width * count := by rw [List.length_drop, hl, Nat.mul_succ]; omega
    obtain ⟨ihl, ihi⟩ := ih n ((b :: bs).drop width) (by omega) hdrop
    have hr : reverseSamples width (n + 1) (b :: bs) =
        ((b :: bs).take width).reverse ++ reverseSamples width n ((b :: bs).drop width) := rfl
    rw [hr]
    refine ⟨by rw [List.length_append, htake, ihl, hdrop, hl, Nat.mul_succ]; omega, fun j i hj hi => ?_⟩
    cases j with
    | zero =>
      rw [Nat.mul_zero, Nat.zero_add, Nat.zero_add, List.getElem?_append_left (by omega),
        List.getElem?_reverse (by rw [List.length_take_of_le hw']; exact hi), List.length_take_of_le hw',
        List.getElem?_take_of_lt (by omega)]
    | succ j =>
      have h1 : width * (j + 1) + i - ((b :: bs).take width).reverse.length = width * j + i := by
        rw [htake, Nat.mul_succ]; omega
      rw [List.getElem?_append_right (by rw [htake, Nat.mul_succ]; omega), h1, ihi j i (by omega) hi,
        List.getElem?_drop]
      congr 1
      rw [Nat.mul_succ]; omega

theorem samplesReversed : Claims.SamplesReversed := by
  intro width count payload hw hl
  refine reverseSamples_spec hw count payload.length payload ?_ hl
  rw [hl]
  exact Nat.le_mul_of_pos_left count hw

/-- Settles O26, from the choice, the launch and the reversed payload. -/
theorem sampleService : Obligations.SampleService := ⟨sampleServiceChoice, samplesLaunch, samplesReversed⟩

end Sys2Proof.Machine
end

section
namespace Sys2Proof.Machine

/-! ### The end of an event, step by step -/

/-- Drains end at the end of an event only for streams that have emptied in it (R98). -/
theorem settleDrains_unemptied {s0 s : State} (h : ∀ st, s.isEmptied st = true → s0.isEmptied st = true) :
    settleDrains s0 s = s := by
  refine each_fixed fun st _ => ?_
  by_cases h0 : s0.isEmptied st = true
  · rw [if_pos h0]
  · rw [if_neg h0, settleDrain_of_not]
    exact Bool.eq_false_iff.mpr fun e => h0 (h st e)

/-- A judgement of ease touches the stream that it judges and the posts. -/
theorem judgeEase_other {st a : StreamIx} {s : State} (h : a ≠ st) : (judgeEase st s).streams[a] = s.streams[a] := by
  have key : ∀ (r : Stream) (k : NoticeKind) (b : List Byte) (t : State), (postProducer r k b t).streams = t.streams := by
    intro r k b t; unfold postProducer; split <;> rfl
  unfold judgeEase
  split
  · rfl
  · split
    · simp only [key, modStream, vget_set, h, if_false]
    · split
      · simp only [key, modStream, vget_set, h, if_false]
      · rfl

/-- Ease is judged for the one stream whose number of blocks the event has changed (R116). -/
theorem judgeAllEase_single {s0 s : State} {st : StreamIx} (hst : s0.uOf st ≠ s.uOf st)
    (h : ∀ a, a ≠ st → s0.uOf a = s.uOf a) : judgeAllEase s0 s = judgeEase st s := by
  let f : StreamIx → State → State := fun a s => if s0.uOf a = s.uOf a then s else judgeEase a s
  have hself : f st s = judgeEase st s := if_neg hst
  have hother : ∀ a, a ≠ st → f a (f st s) = f st s := by
    intro a ha
    rw [hself]
    refine if_pos ((h a ha).trans ?_)
    simp only [State.uOf, judgeEase_other ha]
  exact (each_single (f := f) nodup_allStreams (mem_allStreams st) (fun a ha => if_pos (h a ha)) hother).trans hself

/-- No judgement where no number of blocks has changed (R116). -/
theorem judgeAllEase_same {s0 s : State} (h : ∀ a, s0.uOf a = s.uOf a) : judgeAllEase s0 s = s :=
  each_fixed fun a _ => if_pos (h a)

/-- The ease state that a judgement gives a stream, and the notices that it brings the producer (R116). -/
def Stream.judged (r : Stream) : Bool :=
  if r.eased then decide (r.depth / 2 ≤ r.u) else decide (3 * r.depth / 4 ≤ r.u)

def Stream.easeNotices (st : StreamIx) (r : Stream) : Notices :=
  if r.eased = true ∧ r.u < r.depth / 2 then [(.resume, r.easeFields st)]
  else if r.eased = false ∧ 3 * r.depth / 4 ≤ r.u then [(.ease, r.easeFields st)] else []

/-- Notices posted to one origin. -/
def postsTo (o : Origin) (l : Notices) : List Post := l.map (fun x => ⟨o, .notice x.1 x.2⟩)

/-- Notices posted to the producer of a stream, if it has one (R83). -/
def Stream.toProducer (r : Stream) (l : Notices) : List Post := (r.producer.map (fun p => postsTo (.port p) l)).getD []

theorem toProducer_nil (r : Stream) : r.toProducer [] = [] := by unfold Stream.toProducer; cases r.producer <;> rfl

/-- All that a judgement of ease does. -/
theorem judgeEase_eq {st : StreamIx} {s : State} {r : Stream} (hr : s.streams[st] = some r) :
    judgeEase st s = { s with
      streams := s.streams.set st (some { r with eased := r.judged })
      posts := s.posts ++ r.toProducer (r.easeNotices st) } := by
  have hpost : ∀ (k : NoticeKind) (b : List Byte) (t : State), postProducer r k b t = { t with
      posts := t.posts ++ r.toProducer [(k, b)] } := by
    intro k b t
    unfold postProducer Stream.toProducer
    cases r.producer with
    | none => simp
    | some p => rfl
  have hself : s.streams.set st (some r) = s.streams := by rw [← hr]; exact vset_self _ _
  have hkeep : r.easeNotices st = [] → r.judged = r.eased → s = { s with
      streams := s.streams.set st (some { r with eased := r.judged })
      posts := s.posts ++ r.toProducer (r.easeNotices st) } := by
    intro hn hj
    simp only [hn, hj, toProducer_nil, List.append_nil, hself]
  simp only [judgeEase, hr, Stream.easeLevel, Stream.resumeLevel]
  cases he : r.eased with
  | false =>
    by_cases hu : 3 * r.depth / 4 ≤ r.u
    · have hn : r.easeNotices st = [(.ease, r.easeFields st)] := by simp [Stream.easeNotices, he, hu]
      have hj : r.judged = true := by simp [Stream.judged, he, hu]
      simp only [hu, decide_true, Bool.not_false, Bool.and_self, if_true, hpost, modStream, hr, Option.map_some, hn, hj]
    · simp only [hu, decide_false, Bool.and_false, Bool.false_eq_true, if_false, Bool.false_and]
      exact hkeep (by simp [Stream.easeNotices, he, hu]) (by simp [Stream.judged, he, hu])
  | true =>
    by_cases hu : r.u < r.depth / 2
    · have hn : r.easeNotices st = [(.resume, r.easeFields st)] := by simp [Stream.easeNotices, he, hu]
      have hj : r.judged = false := by simp [Stream.judged, he, hu]
      simp only [hu, decide_true, Bool.not_true, Bool.false_and, Bool.false_eq_true, if_false, Bool.and_self, if_true,
        hpost, modStream, hr, Option.map_some, hn, hj]
    · simp only [hu, decide_false, Bool.and_false, Bool.false_eq_true, if_false, Bool.not_true, Bool.false_and]
      exact hkeep (by simp [Stream.easeNotices, he, hu]) (by simp [Stream.judged, he]; omega)

/-! ### What placing brings one origin (R158) -/

/-- The notices that a list of posts brings an origin, as they were posted. -/
def noticesTo (o : Origin) (posts : List Post) : Notices :=
  posts.filterMap (fun x => match x.item with
    | .notice k b => if x.dest = o then some (k, b) else none
    | _ => none)

/-- Notices in the order of their kinds (R158). -/
def ranked (l : Notices) : Notices := (List.range 12).flatMap (fun i => l.filter (fun x => x.1.rank == i))

/-- Every item posted to an origin is a notice. -/
def OnlyNotices (o : Origin) (posts : List Post) : Prop := ∀ x ∈ posts, x.dest = o → ∃ k b, x.item = .notice k b

theorem modOrigin_origin (o o' : Origin) (f : OriginState → OriginState) (s : State) :
    (modOrigin o f s).origin o' = if o' = o then (s.origin o').map f else s.origin o' := by
  cases o with
  | service => cases o' <;> simp [State.origin]
  | port p =>
    cases o' with
    | service => simp [State.origin]
    | port q =>
      simp only [State.origin, modOrigin, vget_set, Origin.port.injEq]
      split
      · subst_vars; rfl
      · rfl

theorem each_place_origin {o : Origin} : ∀ {l : List Post} {s : State}, OnlyNotices o l →
    (each l place s).origin o = (s.origin o).map (.told (noticesTo o l)) := by
  intro l
  induction l with
  | nil =>
    intro s _
    have : OriginState.told (noticesTo o []) = id := rfl
    simp [this]
  | cons x l ih =>
    intro s h
    rw [each_cons, ih fun y hy => h y (List.mem_cons_of_mem _ hy)]
    obtain ⟨d, item⟩ := x
    by_cases hd : d = o
    · subst hd
      obtain ⟨k, b, hk⟩ := h ⟨d, item⟩ List.mem_cons_self rfl
      obtain rfl : item = .notice k b := hk
      simp only [place, modOrigin_origin, if_true, Option.map_map]
      simp only [noticesTo, List.filterMap_cons, if_true]
      rfl
    · have hne : o ≠ d := fun e => hd e.symm
      have ho : (place ⟨d, item⟩ s).origin o = s.origin o := by
        cases item <;> simp only [place, modOrigin_origin, hne, if_false]
      have hn : noticesTo o (⟨d, item⟩ :: l) = noticesTo o l := by
        cases item <;> simp [noticesTo, hd]
      rw [ho, hn]

theorem noticesTo_append (o : Origin) (a b : List Post) : noticesTo o (a ++ b) = noticesTo o a ++ noticesTo o b :=
  List.filterMap_append

/-- The notices to one origin among the posts of one rank. -/
theorem noticesTo_filter_rank (o : Origin) (all l : List Post) (i : Nat) :
    noticesTo o (l.filter (fun x => x.rank all == i)) = (noticesTo o l).filter (fun x => x.1.rank == i) := by
  induction l with
  | nil => rfl
  | cons x l ih =>
    obtain ⟨d, item⟩ := x
    have hcons : ∀ m : List Post, noticesTo o (⟨d, item⟩ :: m) = noticesTo o [⟨d, item⟩] ++ noticesTo o m :=
      fun m => noticesTo_append o [⟨d, item⟩] m
    rw [hcons l, List.filter_append, ← ih]
    cases item with
    | reply => by_cases h : Post.rank all ⟨d, .reply⟩ = i <;> simp [noticesTo, h]
    | drainReply => by_cases h : Post.rank all ⟨d, .drainReply⟩ = i <;> simp [noticesTo, h]
    | notice k b =>
      have hk : Post.rank all ⟨d, .notice k b⟩ = k.rank := rfl
      rw [List.filter_cons, hk]
      by_cases h : k.rank = i <;> by_cases hd : d = o <;> simp [noticesTo, h, hd]

/-- What the end of an event places at an origin to which it posted notices alone (R158). -/
theorem flush_origin {s : State} {o : Origin} (h : OnlyNotices o s.posts) :
    (flush s).origin o = s.told o (ranked (noticesTo o s.posts)) := by
  unfold State.told
  by_cases hr : s.restarting = true
  · rw [flush_restarting hr, if_pos hr]
    cases o <;> rfl
  · rw [if_neg hr]
    have hr' : s.restarting = false := by simpa using hr
    unfold flush
    simp only [hr', Bool.false_eq_true, if_false]
    rw [each_place_origin]
    · have hn : noticesTo o ((List.range 12).flatMap (fun k => s.posts.filter (fun x => x.rank s.posts == k))) =
          ranked (noticesTo o s.posts) := by
        have : ∀ is : List Nat, noticesTo o (is.flatMap (fun k => s.posts.filter (fun x => x.rank s.posts == k))) =
            is.flatMap (fun i => (noticesTo o s.posts).filter (fun x => x.1.rank == i)) := by
          intro is
          induction is with
          | nil => rfl
          | cons i is ih => rw [List.flatMap_cons, List.flatMap_cons, noticesTo_append, ih, noticesTo_filter_rank]
        exact this _
      rw [hn]
      cases o <;> rfl
    · intro x hx hd
      obtain ⟨i, -, hx⟩ := List.mem_flatMap.mp hx
      exact h x (List.mem_of_mem_filter hx) hd

/-- Notices of one kind stay in their order. -/
theorem ranked_of_kind {l : Notices} {k : NoticeKind} (h : ∀ x ∈ l, x.1 = k) : ranked l = l := by
  have hk : ∀ i, l.filter (fun x => x.1.rank == i) = if k.rank = i then l else [] := by
    intro i
    split
    · exact List.filter_eq_self.mpr fun x hx => by simpa [h x hx]
    · exact List.filter_eq_nil_iff.mpr fun x hx => by simpa [h x hx]
  simp only [ranked, hk]
  cases k <;> simp [NoticeKind.rank, List.range_succ]

theorem told_of_nil (s : State) (o : Origin) : s.told o [] = s.origin o := by
  unfold State.told
  split
  · rfl
  · have : OriginState.told ([] : Notices) = id := rfl
    rw [this, Option.map_id, id]

theorem onlyNotices_postsTo (o o' : Origin) (l : Notices) : OnlyNotices o (postsTo o' l) := by
  intro x hx _
  obtain ⟨y, -, rfl⟩ := List.mem_map.mp hx
  exact ⟨_, _, rfl⟩

theorem noticesTo_postsTo (o o' : Origin) (l : Notices) : noticesTo o (postsTo o' l) = if o' = o then l else [] := by
  induction l with
  | nil => simp [noticesTo, postsTo]
  | cons x l ih =>
    have hx : postsTo o' (x :: l) = ⟨o', .notice x.1 x.2⟩ :: postsTo o' l := rfl
    by_cases h : o' = o
    · simp only [h, if_true] at ih ⊢
      rw [← h, hx, h]
      simp only [noticesTo, List.filterMap_cons, if_true] at ih ⊢
      rw [ih]
    · simp only [h, if_false] at ih ⊢
      rw [hx]
      simp only [noticesTo, List.filterMap_cons, h, if_false] at ih ⊢
      exact ih

/-- What reaches an origin of what is posted to a producer. -/
theorem toProducer_noticesTo (r : Stream) (l : Notices) (o : Origin) : OnlyNotices o (r.toProducer l) ∧
    noticesTo o (r.toProducer l) = if r.producer.map Origin.port = some o then l else [] := by
  unfold Stream.toProducer
  cases r.producer with
  | none => exact ⟨fun x hx => by simp at hx, by simp [noticesTo]⟩
  | some q =>
    refine ⟨onlyNotices_postsTo _ _ _, ?_⟩
    simp only [Option.map_some, Option.getD_some, noticesTo_postsTo, Option.some.injEq]

/-- Placing touches of the service port its origin alone. -/
theorem flush_service (s : State) : (flush s).service = { s.service with origin := (flush s).service.origin } := by
  have h := congrArg State.service (flush_sansOrigins s)
  have h1 := congrArg Service.discards h
  have h2 := congrArg Service.transaction h
  simp only [State.sansOrigins] at h1 h2
  simp only [← h1, ← h2]

/-! ### The TAIL of a SAMPLES parcel (R134) -/

/-- The state in which the TAIL of a SAMPLES parcel has freed the transmitter and told the tap. -/
def tailGone (p : PortIx) (x : Flight) (b : Nat) (t : TapIx) (s : State) : State :=
  modTap t (fun y => if y.consumer = p ∧ y.inFlight = some b then { y with inFlight := none } else y)
    (endFlight p (atStop x (begin_ s)))

theorem tailSamples_eq {p : PortIx} {s : State} {st : StreamIx} {b : Nat} {t : TapIx} {bytes : List Byte} {start : Nat}
    (hf : (s.egress[p]).flight = some ⟨.samples st b t, bytes, start⟩)
    (hstop : start + bytes.length + 2 ≤ 2 * s.clock.cycle + 1) :
    tailSamples p (begin_ s) = releaseBlock st b (tailGone p ⟨.samples st b t, bytes, start⟩ b t s) := by
  have hf' : ((begin_ s).egress[p]).flight = some ⟨.samples st b t, bytes, start⟩ := hf
  have hsent : (begin_ s).tailSent ⟨.samples st b t, bytes, start⟩ = true := decide_eq_true hstop
  simp only [tailSamples, hf', hsent, if_true]
  rfl

/-- A stream after the release of one reference to a block that it holds (R114, R115). -/
def Stream.releases (before after : List Block) (k : Block) (r : Stream) : Stream :=
  { r with fifo := if k.refs ≤ 1 then before ++ after else before ++ { k with refs := k.refs - 1 } :: after }

/-- One release from a FIFO that holds the block. -/
theorem releaseBlock_present {st : StreamIx} {r : Stream} {k : Block} {before after : List Block} {s : State}
    (hr : s.streams[st] = some r) (hq : r.fifo = before ++ k :: after) (hb : ∀ b ∈ before, b.number ≠ k.number) :
    releaseBlock st k.number s = { s with
      streams := s.streams.set st (some (r.releases before after k))
      store := if k.refs ≤ 1 then { s.store with free := s.store.free ++ [k.number] } else s.store } := by
  rw [releaseBlock_some hr, hq, dropReference_present rfl hb]
  by_cases h : k.refs ≤ 1 <;> simp [Stream.releases, h]

/-- An event that writes one stream, which is not DRAINING, ends with the judgement of its ease where its blocks have changed,
and with the placing of what was posted. -/
theorem finish_oneStream {s t : State} {st : StreamIx} {r r' : Stream} (hr : s.streams[st] = some r)
    (hs : t.streams = s.streams.set st (some r')) (hd : r'.state ≠ .draining)
    (hsel : t.tb.selected = s.tb.selected) (hp : t.ports = s.ports) (hds : t.drainSets = s.drainSets)
    (ho : t.origins = s.origins) : finish s t = flush (if r.u = r'.u then t else judgeEase st t) := by
  have hst : t.streams[st] = some r' := by rw [hs, vget_set, if_pos rfl]
  have hother : ∀ a, a ≠ st → t.streams[a] = s.streams[a] := fun a ha => by rw [hs, vget_set, if_neg ha]
  have hu : s.uOf st = r.u ∧ t.uOf st = r'.u := by simp only [State.uOf, hr, hst, Option.map_some, Option.getD_some, and_self]
  have huo : ∀ a, a ≠ st → s.uOf a = t.uOf a := fun a ha => by simp only [State.uOf, hother a ha]
  have hsettle : settleDrains s t = t := by
    refine settleDrains_unemptied fun a ha => ?_
    by_cases hast : a = st
    · subst hast
      simp [-Fin.getElem_fin, State.isEmptied, hst, hd] at ha
    · simpa only [State.isEmptied, hother a hast] using ha
  have hjudge : judgeAllEase s t = if r.u = r'.u then t else judgeEase st t := by
    split
    · rename_i h
      refine judgeAllEase_same fun a => ?_
      by_cases hast : a = st
      · rw [hast, hu.1, hu.2, h]
      · exact huo a hast
    · rename_i h
      exact judgeAllEase_single (by rwa [hu.1, hu.2]) huo
  have hw : ∀ w : State, w = (if r.u = r'.u then t else judgeEase st t) →
      w.tb = t.tb ∧ w.ports = t.ports ∧ w.drainSets = t.drainSets ∧ w.origins = t.origins := by
    rintro w rfl
    split
    · exact ⟨rfl, rfl, rfl, rfl⟩
    · rw [judgeEase_eq hst]; exact ⟨rfl, rfl, rfl, rfl⟩
  obtain ⟨hw1, hw2, hw3, hw4⟩ := hw _ rfl
  unfold finish
  rw [hsettle, hjudge, postRoles_quiet (by rw [hw1, hsel])]
  refine queueFarewells_quiet fun q hq => ?_
  exact mayPark_of (by rw [hw2, hp]; exact id) (hw3.trans hds) (hw4.trans ho) (mayPark_flush hq)

/-- What placing leaves of all but the origins, the service port and the posts. -/
theorem flush_frame {β : Type} (g : State → β) (hg : ∀ s : State, g s.sansOrigins = g s) (s : State) :
    g (flush s) = g { s with posts := [] } := by
  rw [← hg, flush_sansOrigins, hg]

section
variable {p : PortIx} {s : State} {st : StreamIx} {r : Stream} {k : Block} {t : TapIx} {bytes : List Byte} {start : Nat}
  {before after : List Block}

/-- The stream whose block a TAIL has released, at the end of the event: its ease is judged where the block has left it. -/
def Stream.tailed (before after : List Block) (k : Block) (r : Stream) : Stream :=
  { r.releases before after k with eased := if k.refs ≤ 1 then (r.releases before after k).judged else r.eased }

/-- The notices that the release brings the producer (R116). -/
def Stream.tailNotices (st : StreamIx) (before after : List Block) (k : Block) (r : Stream) : Notices :=
  if k.refs ≤ 1 then (r.releases before after k).easeNotices st else []

/-- All that the TAIL of a SAMPLES parcel does, before the placing of its notices. -/
theorem samplesTail_runs (hrest : s.atRest = false)
    (hf : (s.egress[p]).flight = some ⟨.samples st k.number t, bytes, start⟩)
    (hstop : start + bytes.length + 2 ≤ 2 * s.clock.cycle + 1) (hr : s.streams[st] = some r) (hd : r.state ≠ .draining)
    (hq : r.fifo = before ++ k :: after) (hb : ∀ b ∈ before, b.number ≠ k.number) :
    exec (.samplesTail p) s = .next (flush { tailGone p ⟨.samples st k.number t, bytes, start⟩ k.number t s with
      streams := s.streams.set st (some (r.tailed before after k))
      store := if k.refs ≤ 1 then { s.store with free := s.store.free ++ [k.number] } else s.store
      posts := r.toProducer (r.tailNotices st before after k) }) := by
  have hx : exec (.samplesTail p) s = event (tailSamples p) s := rfl
  rw [hx, event_running hrest, tailSamples_eq hf hstop]
  generalize hg : tailGone p ⟨.samples st k.number t, bytes, start⟩ k.number t s = g
  have hgs : g.streams = s.streams := by subst hg; rfl
  have hgp : g.posts = [] := by subst hg; rfl
  have hgt : g.store = s.store := by subst hg; rfl
  rw [releaseBlock_present (by rw [hgs]; exact hr) hq hb, hgs,
    finish_oneStream (r' := r.releases before after k) hr rfl hd (by subst hg; rfl) (by subst hg; rfl) (by subst hg; rfl) (by subst hg; rfl)]
  by_cases hk : k.refs ≤ 1
  · have hne : ¬ r.u = (r.releases before after k).u := by simp [Stream.u, Stream.releases, hq, hk]
    rw [if_neg hne, judgeEase_eq (r := r.releases before after k) (by simp only [vget_set, if_true])]
    simp only [Stream.tailed, Stream.tailNotices, hk, if_true, Vector.set_set, hgp, hgt, List.nil_append]
    rfl
  · have heq : r.u = (r.releases before after k).u := by simp [Stream.u, Stream.releases, hq, hk]
    rw [if_pos heq]
    simp only [Stream.tailed, Stream.tailNotices, hk, if_false, toProducer_nil, hgt, ← hgp]
    rfl

/-- The notices of the release, in the terms of R116. -/
theorem tailNotices_eq :
    let n := before.length + after.length
    let fields := be 1 st.val ++ r.tag :: (be 2 n ++ be 2 r.depth)
    r.tailNotices st before after k = (if 2 ≤ k.refs then []
      else if r.eased = true ∧ n < r.depth / 2 then [(.resume, fields)]
      else if r.eased = false ∧ 3 * r.depth / 4 ≤ n then [(.ease, fields)] else []) := by
  intro n fields
  by_cases hk : k.refs ≤ 1
  · have h2 : ¬ 2 ≤ k.refs := by omega
    have hu : (r.releases before after k).u = n := by simp [Stream.u, Stream.releases, hk, n]
    simp only [Stream.tailNotices, hk, if_true, h2, if_false, Stream.easeNotices, Stream.easeFields, hu]
    rfl
  · simp only [Stream.tailNotices, hk, if_false, (by omega : 2 ≤ k.refs), if_true]

theorem ranked_tailNotices : ranked (r.tailNotices st before after k) = r.tailNotices st before after k := by
  unfold Stream.tailNotices Stream.easeNotices
  split
  · split
    · exact ranked_of_kind (k := .resume) (by simp)
    · split
      · exact ranked_of_kind (k := .ease) (by simp)
      · rfl
  · rfl

end

/-- Settles O27: one reference is released; where the block leaves its stream, the ease of that stream is judged. -/
theorem samplesTail : Obligations.SamplesTail := by
  intro p s st r k t bytes start before after hrest hf hstop hr hd hq hb n fields notices
  refine ⟨_, samplesTail_runs hrest hf hstop hr hd hq hb, ?_⟩
  have hn : r.tailNotices st before after k = notices := tailNotices_eq
  generalize hv : ({ tailGone p ⟨.samples st k.number t, bytes, start⟩ k.number t s with
      streams := s.streams.set st (some (r.tailed before after k))
      store := if k.refs ≤ 1 then { s.store with free := s.store.free ++ [k.number] } else s.store
      posts := r.toProducer (r.tailNotices st before after k) } : State) = v
  have horigin : ∀ o, (flush v).origin o =
      if r.producer.map Origin.port = some o then s.told o notices else s.origin o := by
    intro o
    obtain ⟨h1, h2⟩ := toProducer_noticesTo r (r.tailNotices st before after k) o
    have hvp : v.posts = r.toProducer (r.tailNotices st before after k) := by subst hv; rfl
    have hvo : ∀ l, v.told o l = s.told o l := by intro l; subst hv; cases o <;> rfl
    rw [flush_origin (hvp ▸ h1), hvp, h2, hvo]
    split
    · rw [ranked_tailNotices, hn]
    · exact told_of_nil s o
  have htaps : (flush v).taps = s.taps.set t (s.taps[t].map fun y =>
      if y.consumer = p ∧ y.inFlight = some k.number then { y with inFlight := none } else y) := by
    rw [flush_frame State.taps fun _ => rfl]; subst hv; rfl
  have hstreams : (flush v).streams = s.streams.set st (some (r.tailed before after k)) := by
    rw [flush_frame State.streams fun _ => rfl]; subst hv; rfl
  have hstore : (flush v).store = if k.refs ≤ 1 then { s.store with free := s.store.free ++ [k.number] } else s.store := by
    rw [flush_frame State.store fun _ => rfl]; subst hv; rfl
  refine ⟨?_, ?_, fun q => ?_, fun x hx hc hi => ?_, fun v hv => ?_, fun a ha => ?_, r.tailed before after k, ?_, rfl,
    fun hk => ?_, fun hk => ?_⟩
  · rw [flush_frame (fun s => (s.egress[p]).flight) fun _ => rfl]
    subst hv
    simp only [tailGone, endFlight, modTap, modEgress, vget_set, if_true]
  · have hno : ¬ r.producer.map Origin.port = some .service := by cases r.producer <;> simp
    have ho := horigin .service
    rw [if_neg hno] at ho
    rw [flush_service, Option.some.inj ho]
    subst hv; rfl
  · rw [horigin]
    cases r.producer <;> simp
  · simp only [htaps, vget_set, if_true, hx, Option.map_some, hc, hi, and_self]
  · simp only [htaps, vget_set, hv, if_false]
  · simp only [hstreams, vget_set, ha, if_false]
  · simp only [hstreams, vget_set, if_true]
  · have h1 : ¬ k.refs ≤ 1 := by omega
    simp only [Stream.tailed, Stream.releases, hstore, h1, if_false, and_self]
  · simp only [Stream.tailed, Stream.releases, hstore, hk, if_true, true_and]
    rfl

end Sys2Proof.Machine
end

section
namespace Sys2Proof.Machine

/-! ### Fields of a parcel (R2, R3, R173) -/

/-- A field of big-endian bytes behind others is read back. -/
theorem field_be {pre post : List Byte} {off n x : Nat} (h : pre.length = off) :
    field (pre ++ (be n x ++ post)) off n = x % 256 ^ n := by
  rw [field, List.drop_left' h, List.take_left' (be_length n x), beNat_be]

/-- A byte behind others is read back. -/
theorem field_byte {pre post : List Byte} {off : Nat} {b : Byte} (h : pre.length = off) :
    field (pre ++ b :: post) off 1 = b.toNat := by
  rw [field, List.drop_left' h]
  simp [beNat]

/-- What a parcel of up to 279 body bytes is made of passes the check and is read as kind and body (R3, R5, R9). -/
theorem parcelReadsBack : Claims.ParcelReadsBack := by
  intro kind body hl
  have hcheck : (kind :: (be 2 body.length ++ body)).length = body.length + 3 := by simp; omega
  have hlen : (parcel kind body).length = body.length + 5 := by
    simp only [parcel, List.length_append, hcheck, be_length]
  refine ⟨?_, hlen, ?_⟩
  · have hn : (parcel kind body).length - 2 = (kind :: (be 2 body.length ++ body)).length := by rw [hlen, hcheck]; omega
    have hcrc := (crc16 (kind :: (be 2 body.length ++ body))).isLt
    simp only [checkPasses, hn, beq_iff_eq]
    rw [show parcel kind body = (kind :: (be 2 body.length ++ body)) ++
      be 2 (crc16 (kind :: (be 2 body.length ++ body))).toNat from rfl, List.drop_left, List.take_left, beNat_be]
    exact Nat.mod_eq_of_lt hcrc
  · have hfield : field (parcel kind body) 1 2 = body.length := by
      rw [show parcel kind body = [kind] ++ (be 2 body.length ++
        (body ++ be 2 (crc16 (kind :: (be 2 body.length ++ body))).toNat)) by simp [parcel], field_be (off := 1) rfl]
      omega
    have hbody : ((parcel kind body).drop 3).take ((parcel kind body).length - 5) = body := by
      rw [show parcel kind body = (kind :: be 2 body.length) ++
        (body ++ be 2 (crc16 (kind :: (be 2 body.length ++ body))).toNat) by simp [parcel],
        List.drop_left' (by simp)]
      exact List.take_left' (by simp; omega)
    simp only [Inbound.ofBytes, hbody]
    rw [hfield, hlen, Nat.add_sub_cancel, if_pos rfl]
    rfl

/-! ### The kinds from a frame (Tables 27 and 28) -/

theorem ofBody_order (body : List Byte) : Inbound.ofBody kindOrder body =
    if 2 ≤ body.length ∧ body.length ≤ 34 then
      some (.order (BitVec.ofNat 8 (field body 0 1)) (BitVec.ofNat 8 (field body 1 1)) (body.drop 2))
    else none := rfl

theorem ofBody_samples (body : List Byte) : Inbound.ofBody kindSamples body =
    if 13 ≤ body.length ∧ body.length ≤ 269 then
      some (.samples (BitVec.ofNat 8 (field body 0 1)) (BitVec.ofNat 16 (field body 1 2))
        (BitVec.ofNat 16 (field body 3 2)) (BitVec.ofNat 64 (field body 5 8)) (body.drop 13))
    else none := rfl

theorem ofBody_trigger (body : List Byte) : Inbound.ofBody kindTrigger body =
    if body.length = 9 then some (.trigger (BitVec.ofNat 8 (field body 0 1)) (BitVec.ofNat 64 (field body 1 8)))
    else none := rfl

theorem ofBody_echoBack (body : List Byte) : Inbound.ofBody kindEchoBack body =
    if body.length = 4 then some (.echoBack (BitVec.ofNat 8 (field body 0 1)) (BitVec.ofNat 24 (field body 1 3)))
    else none := rfl

/-- A number of `8 n` bits is read back from its `n` bytes. -/
theorem ofNat_field_be {pre post : List Byte} {off n : Nat} {x : BitVec (8 * n)} (h : pre.length = off) :
    BitVec.ofNat (8 * n) (field (pre ++ (be n x.toNat ++ post)) off n) = x := by
  have hlt : x.toNat < 256 ^ n := by have := x.isLt; rwa [pow_mul] at this
  rw [field_be h, Nat.mod_eq_of_lt hlt, BitVec.ofNat_toNat, BitVec.setWidth_eq]

theorem ofByte_byte (c : OrderCode) : OrderCode.ofByte c.byte = some c := by cases c <;> rfl

theorem fieldsReadBack : Claims.FieldsReadBack := by
  refine ⟨fun ident c args hl => ⟨?_, ofByte_byte c⟩, fun tag sequence count stamp payload hl => ?_, fun line stamp => ?_,
    fun number h => ?_⟩
  · have h0 : field (ident :: c.byte :: args) 0 1 = ident.toNat := field_byte (pre := []) rfl
    have h1 : field (ident :: c.byte :: args) 1 1 = c.byte.toNat := field_byte (pre := [ident]) rfl
    rw [ofBody_order, if_pos (by simp; omega), h0, h1]
    simp
  · have h0 : field (tag :: (be 2 sequence.toNat ++ be 2 count.toNat ++ be 8 stamp.toNat ++ payload)) 0 1 = tag.toNat :=
      field_byte (pre := []) rfl
    have h1 := ofNat_field_be (n := 2) (pre := [tag]) (off := 1) (x := sequence)
      (post := be 2 count.toNat ++ be 8 stamp.toNat ++ payload) rfl
    have h2 := ofNat_field_be (n := 2) (pre := tag :: be 2 sequence.toNat) (off := 3) (x := count)
      (post := be 8 stamp.toNat ++ payload) (by simp)
    have h3 := ofNat_field_be (n := 8) (pre := tag :: (be 2 sequence.toNat ++ be 2 count.toNat)) (off := 5) (x := stamp)
      (post := payload) (by simp)
    have h4 : (tag :: (be 2 sequence.toNat ++ be 2 count.toNat ++ be 8 stamp.toNat ++ payload)).drop 13 = payload :=
      List.drop_left' (l₁ := tag :: (be 2 sequence.toNat ++ be 2 count.toNat ++ be 8 stamp.toNat)) (by simp)
    simp only [List.cons_append, List.nil_append, List.append_assoc] at h0 h1 h2 h3 h4 ⊢
    rw [ofBody_samples, if_pos (by simp; omega), h0, h4]
    simp only [Nat.reduceMul] at h1 h2 h3
    rw [h1, h2, h3]
    simp
  · have h0 : field (line :: be 8 stamp.toNat) 0 1 = line.toNat := field_byte (pre := []) rfl
    have h1 := ofNat_field_be (n := 8) (pre := [line]) (off := 1) (x := stamp) (post := []) rfl
    simp only [List.append_nil, List.cons_append, List.nil_append, Nat.reduceMul] at h1
    rw [ofBody_trigger, if_pos (by simp), h0, h1]
    simp
  · have h0 : field (number :: be 3 h.toNat) 0 1 = number.toNat := field_byte (pre := []) rfl
    have h1 := ofNat_field_be (n := 3) (pre := [number]) (off := 1) (x := h) (post := []) rfl
    simp only [List.append_nil, List.cons_append, List.nil_append, Nat.reduceMul] at h1
    rw [ofBody_echoBack, if_pos (by simp), h0, h1]
    simp

/-! ### The check register (R3) -/

/-- A bit above 16 bits and the bits below it, apart, through an exclusive or. -/
theorem xor_split (a b : Nat) : (a ^^^ b) / 65536 = a / 65536 ^^^ b / 65536 ∧ (a ^^^ b) % 65536 = a % 65536 ^^^ b % 65536 :=
  ⟨Nat.xor_div_two_pow (n := 16), Nat.xor_mod_two_pow (n := 16)⟩

/-- One bit multiplies the register by x, modulo the generator. -/
theorem crcBit_toNat (r : BitVec 16) (b : Bool) {shifted : Nat} (hs : shifted = 2 * r.toNat ^^^ (65536 * b.toNat)) :
    (crcBit r b).toNat = if 65536 ≤ shifted then shifted ^^^ 0x11021 else shifted := by
  have hr := r.isLt
  have htop : r.getLsbD 15 = decide (32768 ≤ r.toNat) := by
    have h1 := BitVec.msb_eq_decide r
    have h2 := BitVec.msb_eq_getLsbD_last r
    rw [h2] at h1
    exact h1
  have hshl : (r <<< 1).toNat = 2 * r.toNat % 65536 := by
    rw [BitVec.toNat_shiftLeft, Nat.shiftLeft_eq, Nat.mul_comm]
  obtain ⟨hdiv, hmod⟩ := xor_split (2 * r.toNat) (65536 * b.toNat)
  have hb1 : 65536 * b.toNat / 65536 = b.toNat := by omega
  have hb2 : 65536 * b.toNat % 65536 = 0 := by omega
  rw [hb1] at hdiv
  rw [hb2, Nat.xor_zero] at hmod
  have hhigh : 2 * r.toNat / 65536 = (decide (32768 ≤ r.toNat)).toNat := by
    by_cases h : 32768 ≤ r.toNat <;> simp only [h, decide_true, decide_false, Bool.toNat_true, Bool.toNat_false] <;> omega
  rw [hhigh] at hdiv
  have hflag : (decide (32768 ≤ r.toNat)).toNat ^^^ b.toNat = (decide (32768 ≤ r.toNat) != b).toNat := by
    cases decide (32768 ≤ r.toNat) <;> cases b <;> rfl
  rw [hflag, ← hs] at hdiv
  rw [← hs] at hmod
  unfold crcBit
  rw [htop]
  cases hq : (decide (32768 ≤ r.toNat) != b) with
  | true =>
    rw [hq] at hdiv
    have hge : 65536 ≤ shifted := by simp at hdiv; omega
    obtain ⟨hd, hm⟩ := xor_split shifted 0x11021
    rw [hdiv] at hd
    rw [hmod] at hm
    have hd : (shifted ^^^ 0x11021) / 65536 = 0 := hd
    rw [if_pos rfl, if_pos hge, BitVec.toNat_xor, hshl]
    have hm : (shifted ^^^ 0x11021) % 65536 = 2 * r.toNat % 65536 ^^^ 0x1021 := hm
    rw [← Nat.div_add_mod (shifted ^^^ 0x11021) 65536, hd, hm]
    simp
  | false =>
    rw [hq] at hdiv
    have hlt : ¬ 65536 ≤ shifted := by simp at hdiv; omega
    rw [if_neg (by simp), if_neg hlt, hshl]
    omega

theorem checkRegister : Claims.CheckRegister := by
  refine ⟨rfl, fun bytes b => ?_⟩
  have hstep : crc16 (bytes ++ [b]) = crcByte (crc16 bytes) b := List.foldl_append
  rw [hstep]
  exact (List.foldl_hom BitVec.toNat fun r i => by
    rw [← Nat.toNat_testBit]
    exact (crcBit_toNat r _ rfl).symm).symm

/-- Settles O16, from whole parcels, the fields of each kind, and the check register. -/
theorem parcelsReadBack : Obligations.ParcelsReadBack := ⟨parcelReadsBack, fieldsReadBack, checkRegister⟩

end Sys2Proof.Machine
end

section
namespace Sys2Proof.Machine

/-! ### The TAIL of a collected parcel (R5) -/

/-- The end of an event looks at the state before it in these places only. -/
theorem finish_congr {s0 s1 : State} (hs : s1.streams = s0.streams) (hr : s1.tb.selected = s0.tb.selected)
    (hp : ∀ q : PortIx, (s1.ports[q]).state = (s0.ports[q]).state) (hd : s1.drainSets = s0.drainSets)
    (ho : s1.origins = s0.origins) (s : State) : finish s1 s = finish s0 s := by
  have h1 : ∀ t, settleDrains s1 t = settleDrains s0 t := by
    intro t
    have he : ∀ st, s1.isEmptied st = s0.isEmptied st := fun st => by simp only [State.isEmptied, hs]
    have ht : s1.tornDown t = s0.tornDown t := by simp only [State.tornDown, hp]
    simp only [settleDrains, he, ht]
  have h2 : ∀ t, judgeAllEase s1 t = judgeAllEase s0 t := by
    intro t
    have hu : ∀ st, s1.uOf st = s0.uOf st := fun st => by simp only [State.uOf, hs]
    simp only [judgeAllEase, hu]
  have h3 : ∀ t, postRoles s1 t = postRoles s0 t := by
    intro t
    simp only [postRoles, hr]
  have h4 : ∀ t, queueFarewells s1 t = queueFarewells s0 t := by
    intro t
    have : ∀ q, s1.mayPark q = s0.mayPark q := fun q => by simp only [State.mayPark, hp, hd, ho]
    simp only [queueFarewells, this]
  simp only [finish, h1, h2, h3, h4]

section
variable {p : PortIx} {f : Fraction} {s : State}

/-- A TAIL that ends a collected parcel whose check passes: the parcel arrives (R5). -/
theorem tail_arrives (hrest : s.atRest = false) (hf : (s.ports[p]).state.framerRuns = true)
    (hn : s.noComparison p = true) (hm : (s.ports[p]).framer.mode = .inside) (hl : 5 ≤ (s.ports[p]).framer.buffer.length)
    (hc : checkPasses (s.ports[p]).framer.buffer = true) :
    exec (.receivedSymbol p .tail f) s = .next (finish s (arrive p (Inbound.ofBytes (s.ports[p]).framer.buffer)
      (setFramer p .outside [] (symbolTaken p f s)))) := by
  rw [exec_receivedSymbol, event_running hrest, receiveSymbol_running hf hn]
  have hfr : ((symbolTaken p f s).ports[p]).framer = (s.ports[p]).framer := by rw [symbolTaken_self]
  have hgood : ¬ ((s.ports[p]).framer.buffer.length < 5 ∨ (!checkPasses (s.ports[p]).framer.buffer) = true) := by
    simp only [hc]; simp only [Bool.not_true, Bool.false_eq_true, or_false]; omega
  simp only [takeFramer, hfr, hm, judgeParcel, hgood, if_false]

/-- The state with the framer back in OUTSIDE, and the slot of the TAIL counted (R5, R64). -/
def afterTail (p : PortIx) (s : State) : State :=
  modPort p (fun x => { x with framer := ⟨.outside, []⟩ })
    (if s.isReference (.port p) then modTb (fun t => { t with edges := t.edges + 1 }) s else s)

/-- The event of a parcel's own command finds what the event of its TAIL finds. -/
theorem receipt_afterTail (p : PortIx) (f : Fraction) (s : State) :
    restartSilence p (recordReceipt p (at_ f (begin_ (afterTail p s)))) =
      setFramer p .outside [] (symbolTaken p f s) := by
  unfold afterTail symbolTaken
  rw [recordReceipt_eq, restartSilence_eq]
  split <;>
  · simp only [setFramer, opened, modPort_modPort]
    simp only [modPort, at_, begin_, modTb, Vector.set_set, vget_set, if_true]
    rfl

theorem afterTail_state (q : PortIx) : ((afterTail p s).ports[q]).state = (s.ports[q]).state := by
  unfold afterTail
  rw [modPort_state rfl]
  split <;> rfl

theorem finish_afterTail (t : State) : finish (afterTail p s) t = finish s t := by
  refine finish_congr ?_ ?_ afterTail_state ?_ ?_ t <;> (unfold afterTail; split <;> rfl)

/-- A TAIL that ends a good parcel is the arrival of that parcel on the port with its framer in OUTSIDE. -/
theorem tail_is_parcel {x : Inbound} (hrest : s.atRest = false) (hf : (s.ports[p]).state.framerRuns = true)
    (hn : s.noComparison p = true) (hm : (s.ports[p]).framer.mode = .inside) (hl : 5 ≤ (s.ports[p]).framer.buffer.length)
    (hc : checkPasses (s.ports[p]).framer.buffer = true) (hx : Inbound.ofBytes (s.ports[p]).framer.buffer = some x)
    (hr : x.inRange = true) :
    exec (.receivedSymbol p .tail f) s = event (receiveParcel p x f) (afterTail p s) := by
  have hrest' : (afterTail p s).atRest = false := by unfold afterTail; split <;> exact hrest
  have hf' : ((at_ f (begin_ (afterTail p s))).ports[p]).state.framerRuns = true := by
    have := afterTail_state (p := p) (s := s) p
    simp only [at_, begin_]
    rw [this]; exact hf
  rw [tail_arrives hrest hf hn hm hl hc, event_running hrest', finish_afterTail, hx]
  simp only [receiveParcel, hf', if_true, hr, receipt_afterTail]

end

/-- What is read from bytes has its length in range (R9). -/
theorem inRange_of_ofBytes {bytes : List Byte} {x : Inbound} (h : Inbound.ofBytes bytes = some x) : x.inRange = true := by
  unfold Inbound.ofBytes at h
  split at h
  · generalize (bytes.drop 3).take (bytes.length - 5) = body at h
    unfold Inbound.ofBody at h
    dsimp only at h
    split at h
    · split at h
      · cases h; rfl
      · cases h
    · split at h
      · split at h
        · cases h
          simp only [Inbound.inRange, List.length_drop, decide_eq_true_eq]
          omega
        · cases h
      · split at h
        · split at h
          · cases h; rfl
          · cases h
        · split at h
          · split at h
            · cases h
              simp only [Inbound.inRange, List.length_drop, decide_eq_true_eq]
              omega
            · cases h
          · split at h
            · cases h; rfl
            · cases h
  · cases h

theorem exec_command (c : OrderCode) (p : PortIx) (ident : Byte) (args : List Byte) (f : Fraction) (s : State) :
    exec (c.command (.port p) ident args f) s = event (receiveParcel p (.order ident c.byte args) f) s := by
  cases c <;> rfl

theorem goodParcelIsItsCommand : Claims.GoodParcelIsItsCommand := by
  intro p f s hrest hf hn hm u bytes hl hc
  have key : ∀ x, Inbound.ofBytes bytes = some x →
      exec (.receivedSymbol p .tail f) s = event (receiveParcel p x f) u := fun x hx =>
    tail_is_parcel hrest hf hn hm hl hc hx (inRange_of_ofBytes hx)
  refine ⟨fun ident c args h => ?_, fun tag sequence count stamp payload h0 h => ?_, fun line stamp h => key _ h,
    fun number h' h => key _ h⟩
  · rw [key _ h, exec_command]
  · subst h0; exact key _ h

theorem badParcelIsCounted : Claims.BadParcelIsCounted := by
  intro p f s hrest hf hn hm hl hc u
  refine ⟨fun h => ?_, fun h => ?_⟩ <;> rw [tail_arrives hrest hf hn hm hl hc, h]
  · simp only [arrive, setFramer, countMalformed, countPort, modPort_modPort]
    rw [finish_symbol fun _ => by rfl]
  · simp only [arrive, dispatch, setFramer, countStray, countPort, modPort_modPort]
    rw [finish_symbol fun _ => by rfl]

/-! ### An ORDER with a code outside the table (R155, R157) -/

theorem ofByte_unknown {code : Byte} (h : code = 0 ∨ 0x1A < code.toNat) : OrderCode.ofByte code = none := by
  have hc : ∀ c : OrderCode, c.byte ≠ 0 ∧ c.byte.toNat ≤ 0x1A := by intro c; cases c <;> decide
  refine List.find?_eq_none.mpr fun c _ he => ?_
  obtain rfl : c.byte = code := by simpa using he
  obtain ⟨h0, h1⟩ := hc c
  rcases h with h | h
  · exact h0 h
  · omega

theorem modOrigin_modOrigin (o : Origin) (f g : OriginState → OriginState) (s : State) :
    modOrigin o f (modOrigin o g s) = modOrigin o (fun q => f (g q)) s := by
  cases o with
  | service => rfl
  | port p =>
    simp only [modOrigin, Vector.set_set, vget_set, if_true, Option.map_map]
    rfl

theorem modOrigin_congr {o : Origin} {f g : OriginState → OriginState} {s : State} {q : OriginState}
    (h : s.origin o = some q) (hfg : f q = g q) : modOrigin o f s = modOrigin o g s := by
  cases o with
  | service =>
    have hq : s.service.origin = q := Option.some.inj h
    simp only [modOrigin, modService, hq, hfg]
  | port p =>
    have hq : s.origins[p] = some q := h
    simp only [modOrigin, hq, Option.map_some, hfg]

/-- An order that names no code of the table, taken into an empty slot (R155). -/
theorem takeOrder_unknown {o : Origin} {ident code : Byte} {args : List Byte} {s : State} {q : OriginState}
    (hq : s.origin o = some q) (hs : q.slot = none) (hc : OrderCode.ofByte code = none) :
    takeOrder o ident code args s =
      post o .reply (modOrigin o (fun q => { q with slot := some ⟨ident, code, some (.unknown, [])⟩ }) s) := by
  have hslot : q.slot.isSome = false := by rw [hs]; rfl
  have hocc : ((occupySlot o ident code s).origin o).bind (·.slot) = some ⟨ident, code, none⟩ := by
    rw [occupySlot, modOrigin_origin, if_pos rfl, hq]; rfl
  simp only [takeOrder, hq, hslot, Bool.false_eq_true, if_false, hc, refuse, answer]
  rw [answerAs_running hocc, occupySlot, modOrigin_modOrigin]

/-- An order that finds the slot occupied and no REPLY queued is answered BUSY (R157). -/
theorem takeOrder_busy {o : Origin} {ident code : Byte} {args : List Byte} {s : State} {q : OriginState}
    (hq : s.origin o = some q) (hs : q.slot ≠ none) (hr : q.hasReply = false) :
    takeOrder o ident code args s =
      modOrigin o (fun q => { q with queue := q.queue ++ [.reply false ident code .busy []] }) s := by
  have hslot : q.slot.isSome = true := Option.isSome_iff_ne_none.mpr hs
  simp only [takeOrder, hq, hslot, if_true, takeBusy, hr, Bool.false_eq_true, if_false]

section
variable {s u : State} {o : Origin} {g : OriginState → OriginState} (hs : u.streams = s.streams)
  (hsel : u.tb.selected = s.tb.selected)
  (hp : ∀ q : PortIx, (u.ports[q]).state = .leaving → (s.ports[q]).state = .leaving) (hd : u.drainSets = s.drainSets)
  (ho : u.origins = s.origins) (hx : u.posts = [])
  (hg : ∀ q, q.queue.length ≤ (g q).queue.length ∧ (g q).closed = q.closed)
include hs hsel hp hd ho hx hg

/-- An event that only adds to the queue of an origin ends as it is. -/
theorem finish_queued : finish s (modOrigin o g u) = modOrigin o g u :=
  finish_quiet (sameFifos_of_eq (by rw [modOrigin_streams, hs])) (by rw [modOrigin_tb, hsel])
    (fun q h => mayPark_of (hp q) hd ho (mayPark_modOrigin hg h)) (by rw [modOrigin_posts, hx])

/-- An event that answers one order ends with the placing of its reply (R156). -/
theorem finish_replied (hres : u.restarting = false) :
    finish s (post o .reply (modOrigin o g u)) = modOrigin o (fun q => (g q).placeReply) u := by
  have hclean : ({ post o .reply (modOrigin o g u) with posts := [] } : State) = modOrigin o g u := by
    have hpost : (modOrigin o g u).posts = [] := by rw [modOrigin_posts, hx]
    simp only [post, ← hpost]
  rw [finish_flush (s := post o .reply (modOrigin o g u)) (sameFifos_of_eq (by rw [post_streams, modOrigin_streams, hs]))
    (by rw [post_tb, modOrigin_tb, hsel]) (fun q h => mayPark_of (hp q) hd ho (mayPark_modOrigin (o := o) hg h)),
    flush_reply (o := o) (by rw [post_restarting, modOrigin_restarting, hres])
      (by rw [post_posts, modOrigin_posts, hx]; rfl), hclean, modOrigin_modOrigin]

end

/-- An ORDER parcel that ends at a TAIL outside TRAINING goes to the order engine (R10, R155). -/
theorem arrive_order {p : PortIx} {f : Fraction} {s : State} {ident code : Byte} {args : List Byte}
    (ht : (s.ports[p]).state ≠ .training) :
    arrive p (some (.order ident code args)) (setFramer p .outside [] (symbolTaken p f s)) =
      takeOrder (.port p) ident code args
        (modPort p (fun x => { x with framer := ⟨.outside, []⟩, score := x.score - 1 }) (symbolTaken p f s)) := by
  have htr : ¬ ((modPort p (fun x => { x with framer := ⟨.outside, []⟩, score := x.score - 1 })
      (symbolTaken p f s)).ports[p]).state = .training := by
    rw [modPort_state rfl, symbolTaken_state]; exact ht
  simp only [arrive, dispatch, setFramer, modPort_modPort, htr, if_false]

theorem unknownOrder : Claims.UnknownOrder := by
  intro p f s ident code args hs hf ht hn hm hl hc hx hcode q hq hr u
  obtain ⟨hrest, hres⟩ : s.atRest = false ∧ s.restarting = false := by simpa [State.inService] using hs
  have huq : u.origin (.port p) = some q := by
    have : u.origins = s.origins := symbolTaken_origins p f s
    simp only [State.origin, this, hq]
  have hures : u.restarting = false := by
    have : (symbolTaken p f s).restarting = s.restarting := by unfold symbolTaken; split <;> rfl
    rw [← hres, ← this]; rfl
  have hup : ∀ r : PortIx, (u.ports[r]).state = .leaving → (s.ports[r]).state = .leaving := fun r h => by
    rwa [modPort_state rfl, symbolTaken_state] at h
  rw [tail_arrives hrest hf hn hm hl hc, hx, arrive_order ht]
  refine ⟨fun hslot => ?_, fun hslot => ?_⟩ <;> refine congrArg Host.Outcome.next ?_
  · rw [takeOrder_unknown huq hslot (ofByte_unknown hcode), finish_replied (u := u) (symbolTaken_streams p f s)
      (symbolTaken_selected p f s) hup (symbolTaken_drainSets p f s) (symbolTaken_origins p f s) (symbolTaken_posts p f s)
      (fun q' => by exact ⟨Nat.le_refl _, rfl⟩) hures]
    refine modOrigin_congr huq ?_
    have hr' : OriginState.hasReply { q with slot := some ⟨ident, code, some (.unknown, [])⟩ } = false := hr
    simp only [OriginState.placeReply, hr', Bool.false_eq_true, if_false]
  · rw [takeOrder_busy huq hslot hr]
    exact finish_queued (u := u) (symbolTaken_streams p f s) (symbolTaken_selected p f s) hup (symbolTaken_drainSets p f s)
      (symbolTaken_origins p f s) (symbolTaken_posts p f s) (fun q' => ⟨by simp, rfl⟩)

/-- Settles O18, from the good parcels, the bad ones and the orders outside the table. -/
theorem tailJudgesParcel : Obligations.TailJudgesParcel :=
  ⟨goodParcelIsItsCommand, badParcelIsCounted, unknownOrder⟩

end Sys2Proof.Machine
end

section
namespace Sys2Proof.Machine

/-! ### Parcels given by their fields (R5, R10) -/

section
variable {p : PortIx} {f : Fraction} {s : State} {x : Inbound}

/-- A parcel that arrives where the framer runs is dispatched (R5, R10). -/
theorem receiveParcel_running (hf : (s.ports[p]).state.framerRuns = true) (hr : x.inRange = true) :
    receiveParcel p x f (begin_ s) = dispatch p x (parcelTaken p f s) := by
  have hf' : ((at_ f (begin_ s)).ports[p]).state.framerRuns = true := hf
  simp only [receiveParcel, hf', if_true, hr, arrive, recordReceipt_eq, restartSilence_eq, modPort_modPort]
  rfl

theorem parcelTaken_state (q : PortIx) : ((parcelTaken p f s).ports[q]).state = (s.ports[q]).state :=
  modPort_state (s := opened f s) rfl q

/-- An event that only writes the receiving port, which stays in its state, ends as it is. -/
theorem finish_parcel {g : Port → Port} (hg : ∀ x, (g x).state = x.state) :
    finish s (modPort p g (parcelTaken p f s)) = modPort p g (parcelTaken p f s) :=
  finish_untouched rfl rfl (fun q hq => by rwa [modPort_state (hg _), parcelTaken_state] at hq) rfl rfl rfl

end

theorem exec_triggerInbound (p : PortIx) (line : Byte) (stamp : Stamp) (f : Fraction) (s : State) :
    exec (.triggerInbound p line stamp f) s = event (receiveParcel p (.trigger line stamp) f) s := rfl

theorem line?_of_val {l : LineIx} {n : Nat} (h : l.val = n) : line? n = some l := by
  subst h
  exact dif_pos l.isLt

/-- An inbound TRIGGER on an ACTIVE port meets its line, with the stamp that R143 gives it. -/
theorem dispatch_trigger {p : PortIx} {line : Byte} {stamp : Stamp} {u : State} {l : LineIx}
    (ha : (u.ports[p]).state = .active) (hl : l.val = line.toNat) :
    dispatch p (.trigger line stamp) u =
      judgeTrigger l (if u.now.toNat + 512 < stamp.toNat then u.now else stamp) (BitVec.ofNat 8 p.val)
        (decide (u.now.toNat + 512 < stamp.toNat)) u := by
  simp only [dispatch, ha, if_true, takeTrigger, line?_of_val hl]
  by_cases h : u.now.toNat + 512 < stamp.toNat
  · rw [if_pos h, if_pos h, decide_eq_true h]
  · rw [if_neg h, if_neg h, decide_eq_false h]

theorem triggerMerges : Claims.TriggerMerges := by
  intro p line stamp f s hrest hf u counted t0
  have hst : ∀ q : PortIx, (u.ports[q]).state = (s.ports[q]).state := parcelTaken_state
  refine ⟨fun ha => ?_, fun ha hl => ?_, fun ha l last hl hlast hlt => ?_⟩ <;>
    rw [exec_triggerInbound, event_running hrest, receiveParcel_running hf rfl]
  · have hna : ¬ (u.ports[p]).state = .active := by rw [hst]; exact ha
    have hd : dispatch p (.trigger line stamp) u = counted fun c => { c with stray := satAdd c.stray 1 } := if_neg hna
    rw [hd, finish_parcel fun _ => by rfl]
  · have hna : (u.ports[p]).state = .active := by rw [hst]; exact ha
    have hline : line? line.toNat = none := dif_neg (by omega)
    have hd : dispatch p (.trigger line stamp) u = counted fun c => { c with malformed := satAdd c.malformed 1 } := by
      simp only [dispatch, hna, if_true, takeTrigger, hline]
      rfl
    rw [hd, finish_parcel fun _ => by rfl]
  · have hmerge : (u.lines[l]).merges t0 = true := by
      have h' : (u.lines[l]).last = some last := hlast
      simp only [Line.merges, h']
      exact decide_eq_true hlt
    rw [dispatch_trigger ((hst p).trans ha) hl, judgeTrigger, if_pos hmerge]
    exact congrArg Host.Outcome.next
      (finish_untouched rfl rfl (fun q hq => by rw [← hst]; exact hq) rfl rfl rfl)

/-! ### The copies of an accepted trigger (R146) -/

/-- A trigger queue that a copy has met. -/
def TriggerQueue.meets (c : TriggerCopy) (q : TriggerQueue) : TriggerQueue :=
  if q.copies.length < 16 then ⟨q.copies ++ [{ c with overrun := q.overrun }], false⟩ else { q with overrun := true }

/-- The port whose trigger queue a copy has met: a copy lost to a full queue is counted. -/
def Port.meets (q : TriggerQueue) (x : Port) : Port :=
  if q.copies.length < 16 then x
  else { x with counters := { x.counters with triggerOverruns := satAdd x.counters.triggerOverruns 1 } }

theorem enqueueCopy_eq (c : TriggerCopy) (p : PortIx) (s : State) : enqueueCopy c p s = { s with
    triggers := s.triggers.set p ((s.triggers[p]).meets c)
    ports := s.ports.set p ((s.ports[p]).meets s.triggers[p]) } := by
  by_cases h : (s.triggers[p]).copies.length < 16
  · have h' : (s.triggers[p]).copies.length < Config.triggerQueue := h
    simp only [enqueueCopy, h', if_true, TriggerQueue.meets, Port.meets, h, vset_self]
    rfl
  · have h' : ¬ (s.triggers[p]).copies.length < Config.triggerQueue := h
    simp only [enqueueCopy, h', if_false, TriggerQueue.meets, Port.meets, h]
    rfl

/-- A copy to each port of a list touches the trigger queues and the counters of those ports. -/
theorem each_enqueueCopy (c : TriggerCopy) : ∀ {l : List PortIx}, l.Nodup → ∀ s : State,
    ∃ (tq : Vector TriggerQueue 12) (ps : Vector Port 12), each l (enqueueCopy c) s = { s with triggers := tq, ports := ps } ∧
      ∀ q : PortIx, tq[q] = (if q ∈ l then (s.triggers[q]).meets c else s.triggers[q]) ∧
        ps[q] = (if q ∈ l then (s.ports[q]).meets s.triggers[q] else s.ports[q]) := by
  intro l
  induction l with
  | nil => intro _ s; exact ⟨s.triggers, s.ports, rfl, fun q => by simp⟩
  | cons p l ih =>
    intro hn s
    obtain ⟨hp, hl⟩ := List.nodup_cons.mp hn
    obtain ⟨tq, ps, he, hq⟩ := ih hl (enqueueCopy c p s)
    rw [enqueueCopy_eq] at he hq
    refine ⟨tq, ps, by rw [each_cons, enqueueCopy_eq, he], fun q => ?_⟩
    obtain ⟨h1, h2⟩ := hq q
    rw [h1, h2]
    simp only [vget_set, List.mem_cons]
    by_cases hqp : q = p
    · subst hqp
      simp only [hp, if_false, if_true, true_or, and_self]
    · simp only [hqp, if_false, false_or, and_self]

/-! ### The fires of an accepted trigger (R150) -/

theorem satAdd_satAdd (x : Count) (m n : Nat) : satAdd (satAdd x m) n = satAdd x (m + n) := by
  refine BitVec.eq_of_toNat_eq ?_
  simp only [satAdd, BitVec.toNat_ofNat]
  omega

theorem satAdd_zero (x : Count) : satAdd x 0 = x := by
  refine BitVec.eq_of_toNat_eq ?_
  have := x.isLt
  simp only [satAdd, BitVec.toNat_ofNat]
  omega

/-- What an acceptance does at one pin: the pin, and the line's late counter where the fire moment has passed. -/
theorem enterFire_eq (l : LineIx) (fire : Stamp) (i : PinIx) (s : State) : ∃ g : Pin → Pin,
    (∀ t : State, t.now = s.now → t.pins[i] = s.pins[i] → enterFire l fire i t = { t with
      pins := t.pins.set i (g t.pins[i])
      lines := t.lines.set l { t.lines[l] with
        late := satAdd (t.lines[l]).late (if (fireMoment fire).toNat ≤ s.now.toNat then 1 else 0) } }) := by
  have hquiet : ∀ t : State, t.lines.set l { t.lines[l] with late := satAdd (t.lines[l]).late 0 } = t.lines := by
    intro t
    rw [satAdd_zero]
    exact vset_self _ _
  cases hp : (s.pins[i]).pulseAt s.now with
  | some q =>
    have hq : s.now.toNat < q.stop.toNat := by
      have := (Option.filter_eq_some_iff.mp hp).2
      simpa using this
    by_cases hlate : (fireMoment fire).toNat ≤ s.now.toNat
    · have hin : (fireMoment fire).toNat < q.stop.toNat := by omega
      refine ⟨fun x => x.mergeFire.countLate, fun t hn ht => ?_⟩
      simp only [enterFire, hn, ht, hp, hlate, decide_true, if_true, hin]
      rw [← ht]; rfl
    · by_cases hin : (fireMoment fire).toNat < q.stop.toNat
      · refine ⟨Pin.mergeFire, fun t hn ht => ?_⟩
        simp only [enterFire, hn, ht, hp, hlate, decide_false, Bool.false_eq_true, if_false, hin, if_true, hquiet]
        rw [← ht]; rfl
      · refine ⟨Pin.placeFire fire, fun t hn ht => ?_⟩
        simp only [enterFire, hn, ht, hp, hlate, hin, if_false, hquiet]
        rw [← ht]; rfl
  | none =>
    by_cases hlate : (fireMoment fire).toNat ≤ s.now.toNat
    · refine ⟨fun x => (x.startPulse (BitVec.ofNat 64 (s.now.toNat / 256 * 256))).countLate, fun t hn ht => ?_⟩
      simp only [enterFire, hn, ht, hp, hlate, decide_true, if_true]
      rw [← ht]; rfl
    · refine ⟨Pin.placeFire fire, fun t hn ht => ?_⟩
      simp only [enterFire, hn, ht, hp, hlate, decide_false, Bool.false_eq_true, if_false, hquiet]
      rw [← ht]; rfl

/-- An acceptance at each pin of a list touches those pins and the line's late counter. -/
theorem each_enterFire (l : LineIx) (fire : Stamp) : ∀ {is : List PinIx}, is.Nodup → ∀ s : State,
    ∃ ps : Vector Pin 4, each is (enterFire l fire) s = { s with
        pins := ps
        lines := s.lines.set l { s.lines[l] with
          late := satAdd (s.lines[l]).late (if (fireMoment fire).toNat ≤ s.now.toNat then is.length else 0) } } ∧
      ∀ i : PinIx, ps[i] = if i ∈ is then (enterFire l fire i s).pins[i] else s.pins[i] := by
  intro is
  induction is with
  | nil =>
    intro _ s
    refine ⟨s.pins, ?_, fun i => by simp⟩
    have : s.lines.set l { s.lines[l] with late := (s.lines[l]).late } = s.lines := vset_self _ _
    simp only [each_nil, List.length_nil, ite_self, satAdd_zero, this]
  | cons i is ih =>
    intro hn s
    obtain ⟨hi, his⟩ := List.nodup_cons.mp hn
    obtain ⟨g, hg⟩ := enterFire_eq l fire i s
    have hfirst := hg s rfl rfl
    obtain ⟨ps, he, hps⟩ := ih his (enterFire l fire i s)
    have hnow : (enterFire l fire i s).now = s.now := by rw [hfirst]; rfl
    rw [hnow] at he
    refine ⟨ps, ?_, fun j => ?_⟩
    · rw [each_cons, he, hfirst]
      by_cases hlate : (fireMoment fire).toNat ≤ s.now.toNat <;>
        simp only [hlate, if_true, if_false, vget_set, Vector.set_set, satAdd_satAdd, List.length_cons, Nat.add_comm]
    · rw [hps j]
      by_cases hj : j = i
      · subst hj
        simp only [hi, if_false, List.mem_cons, true_or, if_true]
      · have hpin : (enterFire l fire i s).pins[j] = s.pins[j] := by rw [hfirst]; simp only [vget_set, hj, if_false]
        obtain ⟨g', hg'⟩ := enterFire_eq l fire j s
        have h1 := hg' s rfl rfl
        have h2 := hg' (enterFire l fire i s) (by rw [hfirst]; rfl) hpin
        have hsame : (enterFire l fire j (enterFire l fire i s)).pins[j] = (enterFire l fire j s).pins[j] := by
          rw [h1, h2]; simp only [vget_set, if_true, hpin]
        simp only [List.mem_cons, hj, false_or, hpin, hsame]

theorem nodup_allPins : allPins.Nodup := List.nodup_finRange 4

/-- What the acceptance of a trigger leaves of the line, the subscribers' queues and the pins (R145, R146, R150). -/
theorem acceptTrigger_fansOut (l : LineIx) (t0 : Stamp) (origin : Byte) (clamped : Bool) (u : State) :
    FannedOut l t0 origin clamped u (acceptTrigger l t0 origin clamped u) := by
  unfold FannedOut
  intro x fire fires late
  generalize hs1 : modLine l (fun x => { x with last := some t0, accepted := satAdd x.accepted 1, pendingMerged := 0 }) u = s1
  let copy : TriggerCopy := ⟨l, origin, fire, clamped, false, x.pendingMerged⟩
  obtain ⟨tq, ps, h2, hq⟩ := each_enqueueCopy copy
    (nodup_allPorts.filter fun p => x.subscribers[p]) s1
  obtain ⟨pins, h3, hpins⟩ := each_enterFire l fire
    (nodup_allPins.filter fun i => (u.pins[i]).subscribes l) { s1 with triggers := tq, ports := ps }
  have hacc : acceptTrigger l t0 origin clamped u =
      each (allPins.filter fun i => (u.pins[i]).subscribes l) (enterFire l fire) { s1 with triggers := tq, ports := ps } := by
    rw [← h2, ← hs1]; rfl
  have hmem : ∀ i : PinIx, i ∈ allPins.filter (fun i => (u.pins[i]).subscribes l) ↔ fires i = true := fun i => by
    rw [List.mem_filter]
    exact and_iff_right (List.mem_finRange i)
  have hcount : (allPins.filter fun i => (u.pins[i]).subscribes l).length = allPins.countP fires := by
    rw [List.countP_eq_length_filter]; rfl
  rw [hacc, h3, hcount]
  refine ⟨by rw [← hs1]; rfl, ?_, fun i => ?_, fun q => ?_⟩
  · subst hs1
    simp only [modLine, vget_set, if_true, Vector.set_set]
    rfl
  · rw [hpins i]
    obtain ⟨g, hg⟩ := enterFire_eq l fire i u
    have h1 := hg u rfl rfl
    have h2' := hg { s1 with triggers := tq, ports := ps } (by rw [← hs1]; rfl) (by rw [← hs1]; rfl)
    have hp : (enterFire l fire i { s1 with triggers := tq, ports := ps }).pins[i] = (enterFire l fire i u).pins[i] := by
      rw [h1, h2', ← hs1]; rfl
    rw [hp, if_congr (hmem i) rfl (show s1.pins[i] = u.pins[i] by rw [← hs1]; rfl)]
  · obtain ⟨hq1, hq2⟩ := hq q
    have ht : s1.triggers[q] = u.triggers[q] := by rw [← hs1]; rfl
    have hp : s1.ports[q] = u.ports[q] := by rw [← hs1]; rfl
    have hsub : q ∈ allPorts.filter (fun p => x.subscribers[p]) ↔ x.subscribers[q] = true := by
      rw [List.mem_filter]
      exact and_iff_right (mem_allPorts q)
    rw [ht, if_congr hsub rfl rfl] at hq1
    rw [ht, hp, if_congr hsub rfl rfl] at hq2
    refine ⟨fun h => ?_, fun h hlen => ?_, fun h hlen => ?_⟩
    · rw [h, if_neg (by simp)] at hq1 hq2
      exact ⟨hq1, hq2⟩
    · rw [if_pos h] at hq1 hq2
      exact ⟨hq2.trans (if_pos hlen), hq1.trans (if_pos hlen)⟩
    · rw [if_pos h] at hq1 hq2
      exact ⟨hq1.trans (if_neg (by omega)), hq2.trans (if_neg (by omega))⟩

/-- An acceptance keeps the state of every port, and all that the end of an event looks at. -/
theorem acceptTrigger_state (l : LineIx) (t0 : Stamp) (origin : Byte) (clamped : Bool) (u : State) (q : PortIx) :
    ((acceptTrigger l t0 origin clamped u).ports[q]).state = (u.ports[q]).state := by
  obtain ⟨-, -, -, hq⟩ := acceptTrigger_fansOut l t0 origin clamped u
  obtain ⟨h1, h2, h3⟩ := hq q
  cases hs : (u.lines[l]).subscribers[q] with
  | false => rw [(h1 hs).2]
  | true =>
    by_cases hlen : (u.triggers[q]).copies.length < 16
    · rw [(h2 hs hlen).1]
    · rw [(h3 hs (by omega)).2]

theorem triggerAccepted : Claims.TriggerAccepted := by
  intro p line stamp f s l hrest ha hl u late t0 hnew
  have hf : (s.ports[p]).state.framerRuns = true := by rw [ha]; rfl
  have hua : (u.ports[p]).state = .active := (parcelTaken_state p).trans ha
  have hmerge : (u.lines[l]).merges t0 = false := by
    have hlines : u.lines = s.lines := rfl
    unfold Line.merges
    rw [hlines]
    cases hlast : (s.lines[l]).last with
    | none => rfl
    | some last => exact decide_eq_false (by simpa [Config.subTicks] using hnew last hlast)
  have ht0 : (if u.now.toNat + 512 < stamp.toNat then u.now else stamp) = t0 := by
    simp only [t0, late, decide_eq_true_eq]
  have hacc : judgeTrigger l t0 (BitVec.ofNat 8 p.val) late u = acceptTrigger l t0 (BitVec.ofNat 8 p.val) late u := by
    rw [judgeTrigger, hmerge, if_neg (by simp)]
  have hfan := acceptTrigger_fansOut l t0 (BitVec.ofNat 8 p.val) late u
  obtain ⟨hrestof, -⟩ := hfan
  refine ⟨acceptTrigger l t0 (BitVec.ofNat 8 p.val) late u, ?_, acceptTrigger_fansOut ..⟩
  rw [exec_triggerInbound, event_running hrest, receiveParcel_running hf rfl, dispatch_trigger hua hl, ht0, hacc]
  refine congrArg Host.Outcome.next (finish_untouched ?_ ?_ (fun q hq => ?_) ?_ ?_ ?_)
  · rw [hrestof]; rfl
  · rw [hrestof]; rfl
  · rw [acceptTrigger_state, parcelTaken_state] at hq; exact hq
  · rw [hrestof]; rfl
  · rw [hrestof]; rfl
  · rw [hrestof]; rfl

/-- Settles O44, from the triggers that are not accepted and those that are. -/
theorem triggerInbound : Obligations.TriggerInbound := ⟨triggerMerges, triggerAccepted⟩

end Sys2Proof.Machine
end

section
namespace Sys2Proof.Machine

/-! ### What the tables of streams, taps and origins are touched by -/

/-- Only the tables of streams, store, taps and origins, the drain sets and the posts differ. -/
def Tables (s t : State) : Prop :=
  ∃ streams store taps posts origins service drainSets freeReads, t = { s with
    streams := streams, store := store, taps := taps, posts := posts, origins := origins, service := service
    drainSets := drainSets, freeReads := freeReads }

theorem Tables.refl (s : State) : Tables s s := ⟨_, _, _, _, _, _, _, _, rfl⟩

theorem Tables.trans {s t u : State} (h1 : Tables s t) (h2 : Tables t u) : Tables s u := by
  obtain ⟨_, _, _, _, _, _, _, _, rfl⟩ := h1
  obtain ⟨_, _, _, _, _, _, _, _, rfl⟩ := h2
  exact ⟨_, _, _, _, _, _, _, _, rfl⟩

theorem Tables.each {α : Type} {f : α → State → State} {is : List α} (h : ∀ i s, Tables s (f i s)) (s : State) :
    Tables s (each is f s) :=
  each_induct (P := Tables s) (fun i _ t ht => ht.trans (h i t)) s (.refl s)

theorem tables_releaseBlock (st : StreamIx) (b : Nat) (s : State) : Tables s (releaseBlock st b s) := by
  unfold releaseBlock
  split
  · exact .refl s
  · exact ⟨_, _, _, _, _, _, _, _, rfl⟩

theorem tables_releaseBlocks (st : StreamIx) (bs : List Nat) (s : State) : Tables s (releaseBlocks st bs s) :=
  .each (fun b s => tables_releaseBlock st b s) s

theorem tables_removeTap (t : TapIx) (s : State) : Tables s (removeTap t s) := by
  unfold removeTap
  split
  · exact .refl s
  · exact (tables_releaseBlocks _ _ s).trans ⟨_, _, _, _, _, _, _, _, rfl⟩

theorem tables_postConsumer (t : TapIx) (k : NoticeKind) (s : State) : Tables s (postConsumer t k s) := by
  unfold postConsumer
  split
  · exact .refl s
  · exact ⟨_, _, _, _, _, _, _, _, rfl⟩

theorem tables_modOrigin (o : Origin) (f : OriginState → OriginState) (s : State) : Tables s (modOrigin o f s) := by
  cases o <;> exact ⟨_, _, _, _, _, _, _, _, rfl⟩

theorem tables_answerAs (item : PostItem) (o : Origin) (r : ResultCode) (b : List Byte) (s : State) :
    Tables s (answerAs item o r b s) := by
  unfold answerAs
  split
  · exact (tables_modOrigin _ _ s).trans ⟨_, _, _, _, _, _, _, _, rfl⟩
  · exact .refl s

theorem tables_modStream (st : StreamIx) (f : Stream → Stream) (s : State) : Tables s (modStream st f s) :=
  ⟨_, _, _, _, _, _, _, _, rfl⟩

theorem tables_endDrain (d : PostItem) (st : StreamIx) (s : State) : Tables s (endDrain d st s) := by
  unfold endDrain
  split
  · exact .refl s
  · rename_i r _
    refine Tables.trans (t := each r.taps (fun t s => s |> postConsumer t .streamEnded |> removeTap t) s)
      (.each (fun t s => (tables_postConsumer t _ s).trans (tables_removeTap t _)) s) ?_
    dsimp only
    split
    · exact (tables_answerAs _ _ _ _ _).trans (tables_modStream ..)
    · exact tables_modStream ..

theorem tables_freeStream (st : StreamIx) (s : State) : Tables s (freeStream st s) := by
  unfold freeStream
  split
  · refine Tables.trans (t := { s with streams := s.streams.set st none }) ⟨_, _, _, _, _, _, _, _, rfl⟩ ?_
    exact .each (fun p s => ⟨_, _, _, _, _, _, _, _, rfl⟩) _
  · exact .refl s

theorem tables_settleDrain (d : PostItem) (st : StreamIx) (s : State) : Tables s (settleDrain d st s) := by
  unfold settleDrain
  split
  · exact .refl s
  · split
    · refine Tables.trans ?_ (tables_freeStream st _)
      split
      · exact tables_endDrain ..
      · exact .refl s
    · exact .refl s

theorem tables_judgeEase (st : StreamIx) (s : State) : Tables s (judgeEase st s) := by
  cases hr : s.streams[st] with
  | none => simp only [judgeEase, hr]; exact .refl s
  | some r => rw [judgeEase_eq hr]; exact ⟨_, _, _, _, _, _, _, _, rfl⟩

theorem tables_postRole (p : PortIx) (n : Nat) (s : State) : Tables s (postRole p n s) := by
  unfold postRole
  split <;> exact ⟨_, _, _, _, _, _, _, _, rfl⟩

/-- A role notice to a source that is a port (R70). -/
def roleTo (c : Option Source) (n : Nat) (s : State) : State :=
  match c with
  | some (.port p) => postRole p n s
  | _ => s

theorem postRoles_eq (s0 s : State) : postRoles s0 s =
    if s0.tb.selected = s.tb.selected then s else roleTo s0.tb.selected 2 (roleTo s.tb.selected 1 s) := rfl

theorem tables_roleTo (c : Option Source) (n : Nat) (s : State) : Tables s (roleTo c n s) := by
  rcases c with _ | _ | p
  · exact .refl s
  · exact .refl s
  · exact tables_postRole p n s

theorem tables_postRoles (s0 s : State) : Tables s (postRoles s0 s) := by
  rw [postRoles_eq]
  split
  · exact .refl s
  · exact (tables_roleTo _ _ s).trans (tables_roleTo _ _ _)

theorem tables_place (x : Post) (s : State) : Tables s (place x s) := by
  obtain ⟨o, _ | _ | ⟨k, b⟩⟩ := x <;> exact tables_modOrigin ..

theorem tables_flush (s : State) : Tables s (flush s) :=
  Tables.trans (t := { s with posts := [] }) ⟨_, _, _, _, _, _, _, _, rfl⟩ (.each tables_place _)

theorem tables_queueFarewells (s0 s : State) : Tables s (queueFarewells s0 s) := by
  refine .each (fun p s => ?_) s
  split
  · exact .refl s
  · unfold queueFarewell
    split
    · exact tables_modOrigin ..
    · exact .refl s

/-- The end of an event touches nothing but the tables, the origins and the posts. -/
theorem tables_finish (s0 s : State) : Tables s (finish s0 s) := by
  unfold finish
  refine Tables.trans (t := settleDrains s0 s) (.each (fun st s => ?_) s) ?_
  · split
    · exact .refl s
    · exact tables_settleDrain ..
  refine Tables.trans (t := judgeAllEase s0 (settleDrains s0 s)) (.each (fun st s => ?_) _) ?_
  · split
    · exact .refl s
    · exact tables_judgeEase ..
  exact ((tables_postRoles s0 _).trans (tables_flush _)).trans (tables_queueFarewells s0 _)

section
variable {s t : State} (h : Tables s t)
include h

theorem Tables.clock : t.clock = s.clock := by obtain ⟨_, _, _, _, _, _, _, _, rfl⟩ := h; rfl
theorem Tables.ports : t.ports = s.ports := by obtain ⟨_, _, _, _, _, _, _, _, rfl⟩ := h; rfl
theorem Tables.delays : t.delays = s.delays := by obtain ⟨_, _, _, _, _, _, _, _, rfl⟩ := h; rfl
theorem Tables.egress : t.egress = s.egress := by obtain ⟨_, _, _, _, _, _, _, _, rfl⟩ := h; rfl
theorem Tables.triggers : t.triggers = s.triggers := by obtain ⟨_, _, _, _, _, _, _, _, rfl⟩ := h; rfl
theorem Tables.lines : t.lines = s.lines := by obtain ⟨_, _, _, _, _, _, _, _, rfl⟩ := h; rfl
theorem Tables.pins : t.pins = s.pins := by obtain ⟨_, _, _, _, _, _, _, _, rfl⟩ := h; rfl
theorem Tables.tb : t.tb = s.tb := by obtain ⟨_, _, _, _, _, _, _, _, rfl⟩ := h; rfl
theorem Tables.settings : t.settings = s.settings := by obtain ⟨_, _, _, _, _, _, _, _, rfl⟩ := h; rfl
theorem Tables.setup : t.setup = s.setup := by obtain ⟨_, _, _, _, _, _, _, _, rfl⟩ := h; rfl
theorem Tables.restarting : t.restarting = s.restarting := by obtain ⟨_, _, _, _, _, _, _, _, rfl⟩ := h; rfl

end

end Sys2Proof.Machine
end

section
namespace Sys2Proof.Machine

/-! ### One index of a run over many -/

/-- In a run over distinct indices the step of one index is taken in a state, and leads to an end, that share with the
beginning, and with that step's outcome, all that the steps of the other indices keep. -/
theorem each_at {α : Type} {is : List α} {f : α → State → State} {i : α} (hn : is.Nodup) (hi : i ∈ is) (s : State) :
    ∃ w, ∀ P : State → Prop, (∀ j ∈ is, j ≠ i → ∀ u, P u → P (f j u)) →
      (P s → P w) ∧ (P (f i w) → P (each is f s)) := by
  obtain ⟨a, b, rfl⟩ := List.append_of_mem hi
  have hni : i ∉ a ++ b := (List.nodup_cons.mp (List.nodup_middle.mp hn)).1
  refine ⟨each a f s, fun P hP => ⟨each_induct (fun j hj u hu => hP j (by simp [hj]) ?_ u hu) s, fun h => ?_⟩⟩
  · rintro rfl; exact hni (List.mem_append_left _ hj)
  · rw [each_append, each_cons]
    refine each_induct (fun j hj u hu => hP j (by simp [hj]) ?_ u hu) _ h
    rintro rfl; exact hni (List.mem_append_right _ hj)

/-- A view on one index after a run over distinct indices, whose other steps keep the view. -/
theorem each_view {α β : Type} {is : List α} {f : α → State → State} {i : α} (hn : is.Nodup) (hi : i ∈ is) (s : State)
    (Inv : State → Prop) (hInv : ∀ j ∈ is, ∀ u, Inv u → Inv (f j u)) (g : State → β)
    (hg : ∀ j ∈ is, j ≠ i → ∀ u, Inv u → g (f j u) = g u) (hs : Inv s) :
    ∃ w, Inv w ∧ g w = g s ∧ g (each is f s) = g (f i w) := by
  obtain ⟨w, hw⟩ := each_at hn hi s
  have h1 := (hw (fun u => Inv u ∧ g u = g s) fun j hj hji u hu => ⟨hInv j hj u hu.1, (hg j hj hji u hu.1).trans hu.2⟩).1
    ⟨hs, rfl⟩
  have h2 := (hw (fun u => Inv u ∧ g u = g (f i w)) fun j hj hji u hu =>
    ⟨hInv j hj u hu.1, (hg j hj hji u hu.1).trans hu.2⟩).2 ⟨hInv i hi w h1.1, rfl⟩
  exact ⟨w, h1.1, h1.2, h2.2⟩

/-! ### Releases, stream by stream (R114, R115) -/

/-- A FIFO after releases one by one. -/
def dropReferences (bs : List Nat) (fifo : List Block) : List Block := bs.foldl (fun l b => (dropReference b l).1) fifo

theorem dropReferences_nil (bs : List Nat) : dropReferences bs [] = [] := by
  unfold dropReferences
  induction bs with
  | nil => rfl
  | cons b bs ih => exact ih

theorem releaseBlock_streams (st : StreamIx) (b : Nat) (s : State) : (releaseBlock st b s).streams =
    s.streams.set st (s.streams[st].map fun r => { r with fifo := (dropReference b r.fifo).1 }) := by
  cases hr : s.streams[st] with
  | none => rw [releaseBlock_free hr, Option.map_none, ← hr, vset_self]
  | some r => rw [releaseBlock_some hr]; rfl

/-- The releases of a list touch the FIFO of one stream, and the free list. -/
theorem releaseBlocks_streams (st : StreamIx) (bs : List Nat) (s : State) : (releaseBlocks st bs s).streams =
    s.streams.set st (s.streams[st].map fun r => { r with fifo := dropReferences bs r.fifo }) := by
  unfold releaseBlocks
  induction bs generalizing s with
  | nil =>
    have : s.streams[st].map (fun r => { r with fifo := dropReferences [] r.fifo }) = s.streams[st] := by
      cases s.streams[st] <;> rfl
    rw [this, vset_self]; rfl
  | cons b bs ih =>
    rw [each_cons, ih, releaseBlock_streams]
    simp only [vget_set, if_true, Vector.set_set, Option.map_map]
    rfl

theorem releaseBlock_keeps (st : StreamIx) (b : Nat) (s : State) :
    ∃ streams store, releaseBlock st b s = { s with streams := streams, store := store } := by
  unfold releaseBlock
  split
  · exact ⟨_, _, rfl⟩
  · exact ⟨_, _, rfl⟩

theorem releaseBlocks_keeps (st : StreamIx) (bs : List Nat) (s : State) :
    ∃ streams store, releaseBlocks st bs s = { s with streams := streams, store := store } := by
  refine each_induct (P := fun t => ∃ streams store, t = { s with streams := streams, store := store })
    (fun b _ t ht => ?_) s ⟨_, _, rfl⟩
  obtain ⟨_, _, rfl⟩ := ht
  obtain ⟨_, _, h⟩ := releaseBlock_keeps st b { s with streams := _, store := _ }
  exact ⟨_, _, h⟩

/-! ### The removal of a tap (R114, R130, R131) -/

/-- A stream that a tap has left. -/
def Stream.loses (t : TapIx) (pending : List Nat) (r : Stream) : Stream :=
  { r with fifo := dropReferences pending r.fifo, taps := r.taps.filter (· != t) }

/-- The removal of a tap touches its record, its stream and the store. -/
theorem removeTap_some {t : TapIx} {s : State} {x : Tap} (hx : s.taps[t] = some x) : ∃ store, removeTap t s = { s with
    streams := s.streams.set x.stream (s.streams[x.stream].map (Stream.loses t x.pending))
    taps := s.taps.set t none, store := store } := by
  obtain ⟨str, sto, h⟩ := releaseBlocks_keeps x.stream x.pending s
  have hs : str = s.streams.set x.stream (s.streams[x.stream].map fun r => { r with fifo := dropReferences x.pending r.fifo }) := by
    rw [← releaseBlocks_streams, h]
  refine ⟨sto, ?_⟩
  simp only [removeTap, hx, h, modStream, hs, vget_set, if_true, Vector.set_set, Option.map_map]
  rfl

theorem removeTap_none {t : TapIx} {s : State} (hx : s.taps[t] = none) : removeTap t s = s := by
  simp only [removeTap, hx]

/-- Each tap list names the taps of its stream, each once (R84, R119). -/
def State.TapsAgree (s : State) : Prop :=
  ∀ st r, s.streams[(st : StreamIx)] = some r →
    r.taps.Nodup ∧ ∀ t : TapIx, t ∈ r.taps ↔ ∃ x, s.taps[t] = some x ∧ x.stream = st

theorem TapListLaw.agree {s : State} (h : s.TapListLaw) : s.TapsAgree := fun st r hr => ⟨(h st r hr).1, (h st r hr).2.1⟩

/-! ### The end of a drain (R98, R99) -/

/-- The notices that the taps of a list bring their consumers, in the order of the list. -/
def State.tapPosts (s : State) (k : NoticeKind) (st : StreamIx) (l : List TapIx) : List Post :=
  l.filterMap (fun v => (s.taps[v]).map (fun x => ⟨.port x.consumer, .notice k (be 1 st.val ++ [x.tag])⟩))

theorem tapPosts_congr {s s' : State} {k : NoticeKind} {st : StreamIx} {l : List TapIx}
    (h : ∀ v ∈ l, s'.taps[v] = s.taps[v]) : s'.tapPosts k st l = s.tapPosts k st l :=
  List.filterMap_congr fun v hv => by rw [h v hv]

theorem onlyNotices_tapPosts (o : Origin) (s : State) (k : NoticeKind) (st : StreamIx) (l : List TapIx) :
    OnlyNotices o (s.tapPosts k st l) := by
  intro x hx _
  obtain ⟨v, -, hv⟩ := List.mem_filterMap.mp hx
  obtain ⟨y, -, rfl⟩ := Option.map_eq_some_iff.mp hv
  exact ⟨_, _, rfl⟩

theorem noticesTo_tapPosts (s : State) (k : NoticeKind) (st : StreamIx) (l : List TapIx) (c : PortIx) :
    noticesTo (.port c) (s.tapPosts k st l) = s.tapNotices k st l c := by
  simp only [noticesTo, State.tapPosts, State.tapNotices, List.filterMap_filterMap]
  refine List.filterMap_congr fun v _ => ?_
  cases s.taps[v] with
  | none => rfl
  | some x => simp [Origin.port.injEq]

theorem noticesTo_tapPosts_service (s : State) (k : NoticeKind) (st : StreamIx) (l : List TapIx) :
    noticesTo .service (s.tapPosts k st l) = [] := by
  simp only [noticesTo, State.tapPosts, List.filterMap_filterMap]
  refine List.filterMap_eq_nil_iff.mpr fun v _ => ?_
  cases s.taps[v] <;> simp

/-- What the taps of a list on one stream leave: their records and places on its tap list go, and what they pended. -/
theorem each_endTaps {st : StreamIx} : ∀ {l : List TapIx} {s : State} {r : Stream}, l.Nodup →
    (∀ v ∈ l, ∃ x, s.taps[v] = some x ∧ x.stream = st) → s.streams[st] = some r →
    ∃ fifo taps store, (r.fifo = [] → fifo = []) ∧
      each l (fun t s => s |> postConsumer t .streamEnded |> removeTap t) s = { s with
        streams := s.streams.set st (some { r with fifo := fifo, taps := r.taps.filter (· ∉ l) })
        taps := taps, store := store, posts := s.posts ++ s.tapPosts .streamEnded st l } ∧
      ∀ v : TapIx, taps[v] = if v ∈ l then none else s.taps[v] := by
  intro l
  induction l with
  | nil =>
    intro s r _ _ hr
    refine ⟨r.fifo, s.taps, s.store, id, ?_, fun v => by simp⟩
    have : s.streams.set st (some { r with taps := r.taps.filter (· ∉ ([] : List TapIx)) }) = s.streams := by
      have : ({ r with taps := r.taps.filter (· ∉ ([] : List TapIx)) } : Stream) = r := by simp
      rw [this, ← hr, vset_self]
    rw [this]
    simp only [each_nil, State.tapPosts, List.filterMap_nil, List.append_nil]
  | cons t l ih =>
    intro s r hn hl hr
    obtain ⟨ht, hn⟩ := List.nodup_cons.mp hn
    obtain ⟨x, hx, rfl⟩ := hl t List.mem_cons_self
    have hpost : postConsumer t .streamEnded s = { s with posts := s.posts ++ s.tapPosts .streamEnded x.stream [t] } := by
      simp only [postConsumer, hx, State.tapPosts, List.filterMap_cons, Option.map_some, List.filterMap_nil]
      rfl
    obtain ⟨sto, hrem⟩ := removeTap_some (t := t) (s := postConsumer t .streamEnded s) (x := x) (by rw [hpost]; exact hx)
    rw [hpost] at hrem
    simp only [hr, Option.map_some] at hrem
    obtain ⟨fifo, taps, store, hf, he, ht'⟩ := ih (s := removeTap t (postConsumer t .streamEnded s))
      (r := r.loses t x.pending) hn (fun v hv => by
        obtain ⟨y, hy, hys⟩ := hl v (List.mem_cons_of_mem _ hv)
        refine ⟨y, ?_, hys⟩
        rw [hpost, hrem]
        simp only [vget_set]
        rw [if_neg (by rintro rfl; exact ht hv), hy])
      (by rw [hpost, hrem]; simp only [vget_set, if_true])
    refine ⟨fifo, taps, store, fun h => hf (by simp only [Stream.loses, h, dropReferences_nil]), ?_, fun v => ?_⟩
    · rw [each_cons]
      rw [he, hpost, hrem]
      have hfilter : (r.loses t x.pending).taps.filter (· ∉ l) = r.taps.filter (· ∉ t :: l) := by
        simp only [Stream.loses, List.filter_filter]
        refine List.filter_congr fun v _ => ?_
        simp only [List.mem_cons, not_or, Bool.decide_and]
        rw [Bool.and_comm]
        congr 1
        by_cases hv : v = t <;> simp [hv]
      have hposts : State.tapPosts { s with
          streams := s.streams.set x.stream (some (r.loses t x.pending)), taps := s.taps.set t none, store := sto
          posts := s.posts ++ s.tapPosts .streamEnded x.stream [t] } .streamEnded x.stream l =
          s.tapPosts .streamEnded x.stream l := tapPosts_congr fun v hv => by
        simp only [vget_set]
        rw [if_neg (by rintro rfl; exact ht hv)]
      have hsplit : s.tapPosts .streamEnded x.stream (t :: l) =
          s.tapPosts .streamEnded x.stream [t] ++ s.tapPosts .streamEnded x.stream l := by
        have : t :: l = [t] ++ l := rfl
        rw [this]; exact List.filterMap_append
      rw [hfilter, hposts, hsplit]
      simp only [Vector.set_set, List.append_assoc]
      rfl
    · rw [ht' v, hpost, hrem]
      simp only [vget_set, List.mem_cons]
      by_cases hv : v = t
      · subst hv; simp [ht]
      · simp [hv]

end Sys2Proof.Machine
end

section
namespace Sys2Proof.Machine

/-! ### Selection (R67, R68, R69, R75, R76, R78) -/

section
variable {s u : State}

theorem candidacy_congr (hs : u.settings = s.settings) (hr : u.tb.refinActive = s.tb.refinActive)
    (hc : u.tb.candidates = s.tb.candidates) (c : Source) : u.candidacy c = s.candidacy c := by
  cases c with
  | refin => simp only [State.candidacy, hs, hr]
  | port p => simp only [State.candidacy, hc]

/-- What selection compares: candidacies and FAILED marks. -/
theorem best_congr (hs : u.settings = s.settings) (hr : u.tb.refinActive = s.tb.refinActive)
    (hf : u.tb.refinFailed = s.tb.refinFailed) (hc : u.tb.candidates = s.tb.candidates)
    (hm : u.tb.failed = s.tb.failed) : u.eligible = s.eligible ∧ u.best = s.best := by
  have he : u.eligible = s.eligible := by
    funext c
    have hfail : u.isFailed c = s.isFailed c := by cases c <;> simp only [State.isFailed, hf, hm]
    simp only [State.eligible, hfail, candidacy_congr hs hr hc]
  exact ⟨he, by simp only [State.best, he]⟩

/-- The best candidate is a candidate, with its class and rank. -/
theorem best_candidacy {c : Source} {y : Candidacy} (h : s.best = some (c, y)) : s.candidacy c = some y := by
  have key : ∀ (l : List Source) (b : Option (Source × Candidacy)),
      (∀ c y, b = some (c, y) → s.candidacy c = some y) → ∀ c y,
      l.foldl (fun best c => match s.eligible c, best with
        | some x, some (_, y) => if x.before y then some (c, x) else best
        | some x, none => some (c, x)
        | none, _ => best) b = some (c, y) → s.candidacy c = some y := by
    intro l
    induction l with
    | nil => intro b hb; exact hb
    | cons d l ih =>
      intro b hb
      refine ih _ fun c y h => ?_
      have hel : ∀ x, s.eligible d = some x → s.candidacy d = some x := fun x hx => by
        unfold State.eligible at hx
        split at hx
        · cases hx
        · exact hx
      dsimp only at h
      split at h
      · split at h
        · cases h; exact hel _ ‹_›
        · exact hb c y h
      · cases h; exact hel _ ‹_›
      · exact hb c y h
  exact key allSources none (fun _ _ h => by cases h) c y h

/-- A start of an acquisition on a candidate, with its TIMEBASE EVENT (R69, R78). -/
theorem startAcquisition_eq {c : Source} {y : Candidacy} {cause : TimebaseCause} (hc : s.candidacy c = some y) :
    startAcquisition c cause s = { s with
      tb := s.tb.acquires c s.clock.cycle
      posts := s.posts ++ postsTo .service [(.timebaseEvent,
        timebaseFields s.tb.state.code 1 cause.code (sourceCode (some c)) y.cls s.tb.savedTrim s.now)] } := by
  have hcls : ({ s with tb := s.tb.acquires c s.clock.cycle } : State).classOf (some c) = y.cls := by
    have : ({ s with tb := s.tb.acquires c s.clock.cycle } : State).candidacy c = some y := by
      rw [← hc]; exact candidacy_congr rfl rfl rfl c
    simp only [State.classOf, Option.bind_some, this, Option.map_some, Option.getD_some]
  rw [← hcls]
  rfl

/-- The entries to FREE and to HOLDOVER, with their TIMEBASE EVENTs (R62, R75, R78). -/
theorem enterFree_eq (cause : TimebaseCause) (s : State) : enterFree cause s = { s with
    tb := s.tb.frees s.settings.localTrim
    posts := s.posts ++ postsTo .service [(.timebaseEvent,
      timebaseFields s.tb.state.code 0 cause.code 15 0 s.settings.localTrim s.now)] } := rfl

theorem enterHoldover_eq (cause : TimebaseCause) (s : State) : enterHoldover cause s = { s with
    tb := s.tb.holds
    posts := s.posts ++ postsTo .service [(.timebaseEvent,
      timebaseFields s.tb.state.code 3 cause.code 15 0 s.tb.savedTrim s.now)] } := rfl

end

/-- All that a re-run of selection does: to the timebase, and the TIMEBASE EVENTs that it posts (R68, R78). -/
theorem reselect_eq (gone : TimebaseCause) (s : State) : reselect gone s = { s with
    tb := (s.selection gone.code).1
    posts := s.posts ++ postsTo .service (s.selection gone.code).2 } := by
  have hquiet : s = { s with tb := s.tb, posts := s.posts ++ postsTo .service [] } := by
    simp only [postsTo, List.map_nil, List.append_nil]
  cases hst : s.tb.state with
  | free =>
    cases hb : s.best with
    | none => simp only [reselect, hst, selectIdle, hb, State.selection]; exact hquiet
    | some cy =>
      obtain ⟨c, y⟩ := cy
      simp only [reselect, hst, selectIdle, hb, State.selection]
      rw [startAcquisition_eq (best_candidacy hb), hst]
      rfl
  | holdover =>
    cases hb : s.best with
    | none => simp only [reselect, hst, selectIdle, hb, State.selection]; exact hquiet
    | some cy =>
      obtain ⟨c, y⟩ := cy
      simp only [reselect, hst, selectIdle, hb, State.selection]
      rw [startAcquisition_eq (best_candidacy hb), hst]
      rfl
  | acquiring =>
    cases he : s.selectedEligible with
    | true =>
      cases hb : s.best with
      | none => simp only [reselect, hst, he, hb, State.selection, if_true]; exact hquiet
      | some cy =>
        obtain ⟨c, y⟩ := cy
        by_cases hc : s.tb.selected = some c
        · simp only [reselect, hst, he, hb, State.selection, if_true, hc]; exact hquiet
        · simp only [reselect, hst, he, hb, State.selection, if_true, hc, if_false]
          rw [startAcquisition_eq (best_candidacy hb), hst]
          rfl
    | false =>
      cases hb : s.best with
      | none =>
        simp only [reselect, hst, he, hb, State.selection, Bool.false_eq_true, if_false]
        rw [enterFree_eq, hst]
        rfl
      | some cy =>
        obtain ⟨c, y⟩ := cy
        simp only [reselect, hst, he, hb, State.selection, Bool.false_eq_true, if_false]
        rw [startAcquisition_eq (best_candidacy hb), hst]
        rfl
  | locked =>
    cases he : s.selectedEligible with
    | true =>
      cases hb : s.best with
      | none => simp only [reselect, hst, he, hb, State.selection, if_true]; exact hquiet
      | some cy =>
        obtain ⟨c, y⟩ := cy
        by_cases hc : s.classOf s.tb.selected < y.cls
        · simp only [reselect, hst, he, hb, State.selection, if_true, hc]
          rw [startAcquisition_eq (best_candidacy hb), hst]
          rfl
        · simp only [reselect, hst, he, hb, State.selection, if_true, hc, if_false]; exact hquiet
    | false =>
      have hbest : (enterHoldover .lost s).best = s.best := (best_congr rfl rfl rfl rfl rfl).2
      cases hb : s.best with
      | none =>
        simp only [reselect, hst, he, Bool.false_eq_true, if_false, selectIdle, hbest, hb, State.selection]
        rw [enterHoldover_eq, hst]
        rfl
      | some cy =>
        obtain ⟨c, y⟩ := cy
        simp only [reselect, hst, he, Bool.false_eq_true, if_false, selectIdle, hbest, hb, State.selection]
        rw [startAcquisition_eq (best_candidacy (hbest.trans hb)), enterHoldover_eq, hst]
        simp only [List.append_assoc]
        rfl

/-- Selection reads the timebase, the clock and the settings. -/
theorem selection_congr {s u : State} (ht : u.tb = s.tb) (hs : u.settings = s.settings) (hc : u.clock = s.clock)
    (gone : Nat) : u.selection gone = s.selection gone := by
  obtain ⟨he, hb⟩ := best_congr (s := s) (u := u) hs (by rw [ht]) (by rw [ht]) (by rw [ht]) (by rw [ht])
  have hse : u.selectedEligible = s.selectedEligible := by simp only [State.selectedEligible, ht, he]
  have hcls : u.classOf = s.classOf := by
    funext c
    have : u.candidacy = s.candidacy := funext fun c => candidacy_congr hs (by rw [ht]) (by rw [ht]) c
    simp only [State.classOf, this]
  simp only [State.selection, ht, hs, hc, hb, hse, hcls, State.now]

/-- What selection takes over of a count of edges: nothing where an acquisition starts; otherwise it stands, and the selected
reference is the old one or none. -/
theorem selection_edges (s : State) (e gone : Nat) :
    let u : State := { s with tb := { s.tb with edges := e } }
    (u.selection gone).2 = (s.selection gone).2 ∧
      ((u.selection gone).1 = (s.selection gone).1 ∨
        (u.selection gone).1 = { (s.selection gone).1 with edges := e } ∧
          ((s.selection gone).1.selected = none ∨ (s.selection gone).1.selected = s.tb.selected)) := by
  intro u
  obtain ⟨he, hb⟩ := best_congr (s := s) (u := u) rfl rfl rfl rfl rfl
  have hse : u.selectedEligible = s.selectedEligible := by simp only [State.selectedEligible, he, u]
  have hcls : u.classOf s.tb.selected = s.classOf s.tb.selected := by
    have : u.candidacy = s.candidacy := funext fun c => candidacy_congr rfl rfl rfl c
    simp only [State.classOf, this]
  have hus : u.tb.state = s.tb.state := rfl
  have husel : u.tb.selected = s.tb.selected := rfl
  simp only [State.selection, hb, hse, hus, husel, hcls]
  cases s.tb.state <;> cases s.selectedEligible <;> rcases s.best with _ | ⟨c, y⟩ <;> dsimp only
  case acquiring.true.some =>
    split
    · exact ⟨rfl, .inr ⟨rfl, .inr rfl⟩⟩
    · exact ⟨rfl, .inl rfl⟩
  case locked.true.some =>
    split
    · exact ⟨rfl, .inl rfl⟩
    · exact ⟨rfl, .inr ⟨rfl, .inr rfl⟩⟩
  case acquiring.false.none | locked.false.none => exact ⟨rfl, .inr ⟨rfl, .inl rfl⟩⟩
  case acquiring.false.some | locked.false.some | free.false.some | free.true.some | holdover.false.some |
    holdover.true.some => exact ⟨rfl, .inl rfl⟩
  all_goals exact ⟨rfl, .inr ⟨rfl, .inr rfl⟩⟩

/-- A reference that a re-run of selection selects anew is the best candidate; the candidates stand. -/
theorem selection_selected (s : State) (gone : Nat) : (s.selection gone).1.candidates = s.tb.candidates ∧
    ((s.selection gone).1.selected = none ∨ (s.selection gone).1.selected = s.tb.selected ∨
      ∃ c y, s.candidacy c = some y ∧ (s.selection gone).1.selected = some c) := by
  simp only [State.selection]
  rcases hb : s.best with _ | ⟨c, y⟩
  · cases s.tb.state <;> cases s.selectedEligible <;> dsimp only
    case acquiring.false | locked.false => exact ⟨rfl, .inl rfl⟩
    all_goals exact ⟨rfl, .inr (.inl rfl)⟩
  · have hc : s.candidacy c = some y := best_candidacy hb
    cases s.tb.state <;> cases s.selectedEligible <;> dsimp only
    case acquiring.true =>
      split
      · exact ⟨rfl, .inr (.inl rfl)⟩
      · exact ⟨rfl, .inr (.inr ⟨c, y, hc, rfl⟩)⟩
    case locked.true =>
      split
      · exact ⟨rfl, .inr (.inr ⟨c, y, hc, rfl⟩)⟩
      · exact ⟨rfl, .inr (.inl rfl)⟩
    all_goals exact ⟨rfl, .inr (.inr ⟨c, y, hc, rfl⟩)⟩

end Sys2Proof.Machine
end

section
namespace Sys2Proof.Machine

/-! ### Streams taken up again (R102, R103) -/

/-- What the taps of a list tell their consumers, each by its own record. -/
def State.consumerPosts (s : State) (k : NoticeKind) (l : List TapIx) : List Post :=
  l.filterMap (fun v => (s.taps[v]).map (fun x => ⟨.port x.consumer, .notice k (be 1 x.stream.val ++ [x.tag])⟩))

theorem postConsumer_eq (t : TapIx) (k : NoticeKind) (s : State) :
    postConsumer t k s = { s with posts := s.posts ++ s.consumerPosts k [t] } := by
  unfold postConsumer
  cases hx : s.taps[t] with
  | none => simp only [State.consumerPosts, List.filterMap_cons, hx, Option.map_none, List.filterMap_nil, List.append_nil]
  | some x => simp only [State.consumerPosts, List.filterMap_cons, hx, Option.map_some, List.filterMap_nil]; rfl

theorem each_postConsumer (k : NoticeKind) : ∀ (l : List TapIx) (s : State),
    each l (fun t => postConsumer t k) s = { s with posts := s.posts ++ s.consumerPosts k l } := by
  intro l
  induction l with
  | nil => intro s; simp only [each_nil, State.consumerPosts, List.filterMap_nil, List.append_nil]
  | cons t l ih =>
    intro s
    have hsplit : s.consumerPosts k (t :: l) = s.consumerPosts k [t] ++ s.consumerPosts k l :=
      List.filterMap_append (l := [t])
    rw [each_cons, postConsumer_eq, ih, hsplit, ← List.append_assoc]
    rfl

/-- By the law of the tap lists the record of a tap names the stream of its list. -/
theorem consumerPosts_eq {s : State} {k : NoticeKind} {st : StreamIx} {l : List TapIx}
    (h : ∀ v ∈ l, ∀ x, s.taps[v] = some x → x.stream = st) : s.consumerPosts k l = s.tapPosts k st l := by
  refine List.filterMap_congr fun v hv => ?_
  cases hx : s.taps[v] with
  | none => rfl
  | some x => rw [Option.map_some, Option.map_some, h v hv x hx]

theorem onlyNotices_consumerPosts (o : Origin) (s : State) (k : NoticeKind) (l : List TapIx) :
    OnlyNotices o (s.consumerPosts k l) := by
  intro x hx _
  obtain ⟨v, -, hv⟩ := List.mem_filterMap.mp hx
  obtain ⟨y, -, rfl⟩ := Option.map_eq_some_iff.mp hv
  exact ⟨_, _, rfl⟩

theorem noticesTo_consumerPosts_service (s : State) (k : NoticeKind) (l : List TapIx) :
    noticesTo .service (s.consumerPosts k l) = [] := by
  simp only [noticesTo, State.consumerPosts, List.filterMap_filterMap]
  refine List.filterMap_eq_nil_iff.mpr fun v _ => ?_
  cases s.taps[v] <;> simp

/-- A stream that a port has taken up (R103). -/
def Stream.takenUp (p : PortIx) (r : Stream) : Stream :=
  { r with state := .flowing, producer := some p, orphanDeadline := none, baseline := none, resumeMark := true }

/-- What the taking up of a stream tells: STREAM RESUMED to the consumers, ADOPTED to the port. -/
def State.adoptPosts (s : State) (p : PortIx) (st : StreamIx) : List Post :=
  match s.streams[st] with
  | none => []
  | some r => s.consumerPosts .streamResumed r.taps ++ postsTo (.port p) [(.adopted, be 1 st.val ++ [r.tag])]

theorem readoptStream_eq (p : PortIx) (st : StreamIx) (s : State) : readoptStream p st s = { s with
    streams := s.streams.set st (s.streams[st].map (Stream.takenUp p)), posts := s.posts ++ s.adoptPosts p st } := by
  unfold readoptStream State.adoptPosts
  cases hr : s.streams[st] with
  | none =>
    have hset : s.streams.set st none = s.streams := by rw [← hr, vset_self]
    simp only [Option.map_none, List.append_nil, hset]
  | some r =>
    simp only [each_postConsumer, postNotice, post, modStream, hr, Option.map_some, List.append_assoc]
    rfl

/-- A run over distinct streams, each step of which rewrites its own stream and posts. -/
theorem each_streams {f : StreamIx → State → State} (g : StreamIx → Option Stream → Option Stream)
    (Q : StreamIx → Option Stream → List Post) {s : State} : ∀ {l : List StreamIx}, l.Nodup →
    (∀ st ∈ l, ∀ streams posts, f st { s with streams := streams, posts := posts } = { s with
      streams := streams.set st (g st streams[st]), posts := posts ++ Q st streams[st] }) →
    ∀ streams posts, each l f { s with streams := streams, posts := posts } = { s with
      streams := Vector.ofFn (fun st : StreamIx => if st ∈ l then g st streams[st] else streams[st])
      posts := posts ++ l.flatMap (fun st => Q st streams[st]) } := by
  intro l
  induction l with
  | nil =>
    intro _ _ streams posts
    have : (Vector.ofFn fun st : StreamIx => streams[st]) = streams :=
      Vector.ext fun i hi => by rw [Vector.getElem_ofFn]; rfl
    simp only [each_nil, List.not_mem_nil, if_false, List.flatMap_nil, List.append_nil, this]
  | cons st l ih =>
    intro hn hf streams posts
    obtain ⟨hst, hn⟩ := List.nodup_cons.mp hn
    rw [each_cons, hf st List.mem_cons_self, ih hn fun a ha => hf a (List.mem_cons_of_mem _ ha), List.flatMap_cons,
      ← List.append_assoc]
    have hstreams : (Vector.ofFn fun a : StreamIx => if a ∈ l then g a (streams.set st (g st streams[st]))[a]
        else (streams.set st (g st streams[st]))[a]) =
        Vector.ofFn fun a : StreamIx => if a ∈ st :: l then g a streams[a] else streams[a] := by
      refine congrArg Vector.ofFn (funext fun a => ?_)
      simp only [vget_set, List.mem_cons]
      by_cases ha : a = st
      · subst ha; simp only [hst, if_false, if_true, true_or]
      · simp only [ha, if_false, false_or]
    have hposts : l.flatMap (fun a => Q a (streams.set st (g st streams[st]))[a]) = l.flatMap (fun a => Q a streams[a]) :=
      List.flatMap_congr fun a ha => by rw [vget_set, if_neg (by rintro rfl; exact hst ha)]
    rw [hstreams, hposts]

theorem each_readoptStream (p : PortIx) {l : List StreamIx} {s : State} (hn : l.Nodup) : each l (readoptStream p) s = { s with
    streams := Vector.ofFn (fun st : StreamIx =>
      if st ∈ l then s.streams[st].map (Stream.takenUp p) else s.streams[st])
    posts := s.posts ++ l.flatMap (s.adoptPosts p) } :=
  each_streams (fun _ o => o.map (Stream.takenUp p)) (fun st o => match o with
    | none => []
    | some r => s.consumerPosts .streamResumed r.taps ++ postsTo (.port p) [(.adopted, be 1 st.val ++ [r.tag])]) hn
    (fun st _ _ _ => readoptStream_eq p st _) s.streams s.posts

/-! ### Admission (R12, R28, R41, R55, R103) -/

/-- A port that has entered ACTIVE (R28). -/
def Port.admitted (x : Port) : Port :=
  { x with state := .active, held := false, holdBeats := 0, missRun := 0, failures := 0, epoch := none }

/-- The streams once a port has taken up its orphans. -/
def State.takeUp (s : State) (p : PortIx) : Vector (Option Stream) 64 :=
  Vector.ofFn (fun st : StreamIx => if s.isOrphanOf p st then s.streams[st].map (Stream.takenUp p) else s.streams[st])

/-- What an admission posts: PORT EVENT, then what the taking up of the orphans tells. -/
def State.admitPosts (s : State) (p : PortIx) : List Post :=
  postsTo .service [(.portEvent, portEventFields p .admitted .active .epoch (s.ports[p]).frame)] ++
    (allStreams.filter (s.isOrphanOf p)).flatMap (s.adoptPosts p)

/-- Whether the beat is a port's in the echo interval, and no echo of it is due or out (R45, R55). -/
abbrev State.echoDue (s : State) (p : PortIx) : Prop :=
  s.tb.beat.toNat % 2 ^ s.settings.echoExp = p.val % 2 ^ s.settings.echoExp ∧ (s.delays[p]).due = none ∧
    (s.delays[p]).outstanding = none

theorem isSome_of_isOrphanOf {s : State} {p : PortIx} {st : StreamIx} (h : s.isOrphanOf p st = true) : (s.streams[st]).isSome := by
  unfold State.isOrphanOf at h
  split at h
  · simp only [*, Option.isSome_some]
  · cases h

theorem isOrphanOf_iff {s : State} {p : PortIx} {st : StreamIx} {r : Stream} (hr : s.streams[st] = some r) :
    s.isOrphanOf p st = true ↔ r.state = .orphaned ∧ s.frameId p = some r.frameId := by
  simp only [State.isOrphanOf, hr, Bool.and_eq_true, beq_iff_eq]

/-- A stream once a port has taken up the orphans of its frame. -/
def State.takeUpOf (s : State) (p : PortIx) (r : Stream) : Stream :=
  if r.state = .orphaned ∧ s.frameId p = some r.frameId then r.takenUp p else r

theorem takeUp_stream (s : State) (p : PortIx) (st : StreamIx) : (s.takeUp p)[st] = s.streams[st].map (s.takeUpOf p) := by
  have h : (s.takeUp p)[st] = if s.isOrphanOf p st then s.streams[st].map (Stream.takenUp p) else s.streams[st] := by
    simp only [State.takeUp, Fin.getElem_fin, Vector.getElem_ofFn, Fin.eta]
  rw [h]
  cases hr : s.streams[st] with
  | none => rw [Option.map_none, Option.map_none, ite_self]
  | some r =>
    by_cases ho : r.state = .orphaned ∧ s.frameId p = some r.frameId
    · rw [if_pos ((isOrphanOf_iff hr).mpr ho), Option.map_some, Option.map_some, State.takeUpOf, if_pos ho]
    · rw [if_neg (mt (isOrphanOf_iff hr).mp ho), Option.map_some, State.takeUpOf, if_neg ho]

/-- The state to which an admission brings the hub; what it posts is still to be placed. -/
def State.afterAdmission (s : State) (p : PortIx) : State := { s with
  ports := s.ports.set p (s.ports[p]).admitted
  streams := s.takeUp p
  egress := s.egress.set p { s.egress[p] with dueBeat := some ((s.egress[p]).dueBeat.getD s.tb.beat) }
  delays := s.delays.set p (if s.echoDue p then { s.delays[p] with due := some .steady } else s.delays[p])
  posts := s.posts ++ s.admitPosts p }

theorem admitPort_eq {s : State} {p : PortIx} (hst : (s.ports[p]).state = .admitted)
    (he : (s.ports[p]).epoch = some s.tb.beat) : admitPort p s = s.afterAdmission p := by
  have hmove : moveTo p .active .epoch s = { s with
      ports := s.ports.set p (s.ports[p]).admitted
      posts := s.posts ++ postsTo .service [(.portEvent, portEventFields p .admitted .active .epoch (s.ports[p]).frame)] } := by
    simp only [moveTo, hst]; rfl
  have hframe : (moveTo p .active .epoch s).frameId p = s.frameId p := by
    simp only [hmove, State.frameId, vget_set, if_true, Port.admitted]
  have horphan : (moveTo p .active .epoch s).isOrphanOf p = s.isOrphanOf p := by
    funext st; simp only [State.isOrphanOf, hframe]; rw [hmove]
  have hadopt : (moveTo p .active .epoch s).adoptPosts p = s.adoptPosts p := by
    funext st; rw [hmove]; rfl
  have hread : readoptStreams p (moveTo p .active .epoch s) = { s with
      ports := s.ports.set p (s.ports[p]).admitted, streams := s.takeUp p, posts := s.posts ++ s.admitPosts p } := by
    unfold readoptStreams
    rw [each_readoptStream p (nodup_allStreams.filter _), horphan, hadopt, hmove]
    simp only [List.mem_filter, mem_allStreams, true_and, List.append_assoc]
    rfl
  simp only [admitPort, hst, he, and_self, if_true, hread]
  simp only [markBeat, vget_set, if_true, Port.admitted, true_or, modEgress, scheduleEcho, true_and]
  unfold State.afterAdmission
  by_cases hecho : s.echoDue p
  · have hd : s.delays[p].due = none := hecho.2.1
    rw [if_pos (by exact hecho), if_pos hecho]
    rfl
  · rw [if_neg (by exact hecho), if_neg hecho, vset_self]
    rfl

/-! ### What an admission tells -/

/-- Where streams change in place, but neither their blocks nor any to DRAINING, no drain ends and no ease is judged. -/
theorem settled_quiet {s t : State} (g : StreamIx → Stream → Stream)
    (hg : ∀ st : StreamIx, t.streams[st] = (s.streams[st]).map (g st))
    (hf : ∀ (st : StreamIx) r, s.streams[st] = some r → (g st r).fifo = r.fifo ∧ ((g st r).state = .draining → r.state = .draining)) :
    settleDrains s t = t ∧ judgeAllEase s t = t := by
  refine ⟨settleDrains_unemptied fun st h => ?_, judgeAllEase_same fun st => ?_⟩
  · cases hs : s.streams[st] with
    | none => simp only [State.isEmptied, hg st, hs, Option.map_none] at h; cases h
    | some r =>
      obtain ⟨hfifo, hstate⟩ := hf st r hs
      simp only [State.isEmptied, hg st, hs, Option.map_some, hfifo, Bool.and_eq_true, beq_iff_eq] at h ⊢
      exact ⟨hstate h.1, h.2⟩
  · cases hs : s.streams[st] with
    | none => simp only [State.uOf, hg st, hs, Option.map_none]
    | some r => simp only [State.uOf, hg st, hs, Option.map_some, Stream.u, (hf st r hs).1]

/-- An event that changes streams in place, but neither their blocks nor any to DRAINING, selects as before and brings no port
to LEAVING ends with the placing of what was posted. -/
theorem finish_settled {s t : State} (g : StreamIx → Stream → Stream)
    (hg : ∀ st : StreamIx, t.streams[st] = (s.streams[st]).map (g st))
    (hf : ∀ (st : StreamIx) r, s.streams[st] = some r → (g st r).fifo = r.fifo ∧ ((g st r).state = .draining → r.state = .draining))
    (hr : t.tb.selected = s.tb.selected) (hp : ∀ q : PortIx, (t.ports[q]).state = .leaving → (s.ports[q]).state = .leaving)
    (hd : t.drainSets = s.drainSets) (ho : t.origins = s.origins) : finish s t = flush t := by
  obtain ⟨hsettle, hease⟩ := settled_quiet g hg hf
  unfold finish
  rw [hsettle, hease, postRoles_quiet hr]
  exact queueFarewells_quiet fun q hq => mayPark_of (hp q) hd ho (mayPark_flush hq)

theorem noticesTo_flatMap {α : Type} (o : Origin) (l : List α) (f : α → List Post) :
    noticesTo o (l.flatMap f) = l.flatMap (fun i => noticesTo o (f i)) := by
  induction l with
  | nil => rfl
  | cons i l ih => rw [List.flatMap_cons, List.flatMap_cons, noticesTo_append, ih]

theorem onlyNotices_append {o : Origin} {a b : List Post} (ha : OnlyNotices o a) (hb : OnlyNotices o b) :
    OnlyNotices o (a ++ b) := fun x hx => (List.mem_append.mp hx).elim (ha x) (hb x)

theorem onlyNotices_flatMap {α : Type} {o : Origin} {l : List α} {f : α → List Post} (h : ∀ i ∈ l, OnlyNotices o (f i)) :
    OnlyNotices o (l.flatMap f) := fun x hx => by
  obtain ⟨i, hi, hx⟩ := List.mem_flatMap.mp hx
  exact h i hi x hx

theorem onlyNotices_adoptPosts (o : Origin) (s : State) (p : PortIx) (st : StreamIx) : OnlyNotices o (s.adoptPosts p st) := by
  unfold State.adoptPosts
  split
  · exact fun x hx => by cases hx
  · exact onlyNotices_append (onlyNotices_consumerPosts o s _ _) (onlyNotices_postsTo o _ _)

theorem noticesTo_adoptPosts_service (s : State) (p : PortIx) (st : StreamIx) : noticesTo .service (s.adoptPosts p st) = [] := by
  unfold State.adoptPosts
  split
  · rfl
  · rw [noticesTo_append, noticesTo_consumerPosts_service, noticesTo_postsTo]
    rfl

/-- The taking up of a stream whose taps' records agree with its list tells a port of its taps on it, and the producer of
itself. -/
theorem noticesTo_adoptPosts {s : State} (h : s.TapsAgree) {p : PortIx} {st : StreamIx} {r : Stream}
    (hr : s.streams[st] = some r) (c : PortIx) : noticesTo (.port c) (s.adoptPosts p st) =
      s.tapNotices .streamResumed st r.taps c ++ if c = p then [(.adopted, be 1 st.val ++ [r.tag])] else [] := by
  have hstream : ∀ v ∈ r.taps, ∀ x, s.taps[v] = some x → x.stream = st := fun v hv x hx => by
    obtain ⟨y, hy, hys⟩ := ((h st r hr).2 v).mp hv
    rw [hx] at hy; cases hy; exact hys
  simp only [State.adoptPosts, hr, noticesTo_append, consumerPosts_eq hstream, noticesTo_tapPosts, noticesTo_postsTo,
    Origin.port.injEq, eq_comm (a := p)]

theorem onlyNotices_admitPosts (o : Origin) (s : State) (p : PortIx) : OnlyNotices o (s.admitPosts p) :=
  onlyNotices_append (onlyNotices_postsTo o _ _) (onlyNotices_flatMap fun st _ => onlyNotices_adoptPosts o s p st)

theorem noticesTo_admitPosts_service (s : State) (p : PortIx) : noticesTo .service (s.admitPosts p) =
    [(.portEvent, portEventFields p .admitted .active .epoch (s.ports[p]).frame)] := by
  simp only [State.admitPosts, noticesTo_append, noticesTo_postsTo, if_true, noticesTo_flatMap, noticesTo_adoptPosts_service,
    flatMap_nil', List.append_nil]

theorem noticesTo_admitPosts_port (s : State) (p c : PortIx) : noticesTo (.port c) (s.admitPosts p) =
    noticesTo (.port c) ((allStreams.filter (s.isOrphanOf p)).flatMap (s.adoptPosts p)) := by
  rw [State.admitPosts, noticesTo_append, noticesTo_postsTo, if_neg (by simp), List.nil_append]

/-- Notices in the order of R158 are the one list in that order that keeps each rank's notices in their order. -/
theorem ranked_eq {l l' : Notices} (h : ∀ i, l.filter (fun x => x.1.rank == i) = l'.filter (fun x => x.1.rank == i))
    (hs : l'.Pairwise (fun x y => x.1.rank ≤ y.1.rank)) : ranked l = l' := by
  have key : ∀ n, (List.range n).flatMap (fun i => l'.filter (fun x => x.1.rank == i)) =
      l'.filter (fun x => decide (x.1.rank < n)) := by
    intro n
    induction n with
    | zero => simp
    | succ n ih =>
      rw [List.range_succ, List.flatMap_append, ih, List.flatMap_singleton]
      clear ih h
      induction l' with
      | nil => rfl
      | cons x l' ih =>
        obtain ⟨hx, hs⟩ := List.pairwise_cons.mp hs
        have ih := ih hs
        rcases lt_trichotomy x.1.rank n with hlt | heq | hgt
        · have h1 : x.1.rank < n + 1 := by omega
          have h2 : x.1.rank ≠ n := by omega
          simp only [List.filter_cons, hlt, h1, h2, decide_true, if_true, beq_iff_eq, if_false, List.cons_append, ih]
        · have h1 : x.1.rank < n + 1 := by omega
          have h2 : ¬ x.1.rank < n := by omega
          have hnil : l'.filter (fun y => decide (y.1.rank < n)) = [] :=
            List.filter_eq_nil_iff.mpr fun y hy => by simpa using heq ▸ hx y hy
          simp only [hnil, List.nil_append] at ih
          simp only [List.filter_cons, heq, Nat.lt_irrefl, Nat.lt_succ_self, decide_true, decide_false, if_true, beq_self_eq_true,
            Bool.false_eq_true, if_false, hnil, List.nil_append, ih]
        · have h1 : ∀ y ∈ x :: l', n < y.1.rank := fun y hy => by
            rcases List.mem_cons.mp hy with rfl | hy
            · exact hgt
            · exact lt_of_lt_of_le hgt (hx y hy)
          have a : (x :: l').filter (fun y => decide (y.1.rank < n)) = [] :=
            List.filter_eq_nil_iff.mpr fun y hy => by have := h1 y hy; simp; omega
          have b : (x :: l').filter (fun y => y.1.rank == n) = [] :=
            List.filter_eq_nil_iff.mpr fun y hy => by have := h1 y hy; simp; omega
          have c : (x :: l').filter (fun y => decide (y.1.rank < n + 1)) = [] :=
            List.filter_eq_nil_iff.mpr fun y hy => by have := h1 y hy; simp; omega
          rw [a, b, c]; rfl
  unfold ranked
  rw [List.flatMap_congr fun i _ => h i, key]
  exact List.filter_eq_self.mpr fun x _ => by cases x.1 <;> rfl

/-- Of notices of one kind those of a rank are all or none. -/
theorem filter_kind {l : Notices} {k : NoticeKind} (h : ∀ x ∈ l, x.1 = k) (i : Nat) :
    l.filter (fun x => x.1.rank == i) = if k.rank = i then l else [] := by
  split
  · exact List.filter_eq_self.mpr fun x hx => by simpa [h x hx]
  · exact List.filter_eq_nil_iff.mpr fun x hx => by simpa [h x hx]

/-- Notices of two kinds that many steps bring, each one of the one and then one of the other. -/
theorem filter_flatMap_kinds {α : Type} {l : List α} {f g : α → Notices} {k k' : NoticeKind} (hk : k.rank ≠ k'.rank)
    (hf : ∀ a, ∀ x ∈ f a, x.1 = k) (hg : ∀ a, ∀ x ∈ g a, x.1 = k') (i : Nat) :
    (l.flatMap (fun a => f a ++ g a)).filter (fun x => x.1.rank == i) =
      if k.rank = i then l.flatMap f else if k'.rank = i then l.flatMap g else [] := by
  rw [List.filter_flatMap]
  simp only [List.filter_append, filter_kind (hf _), filter_kind (hg _)]
  by_cases h : k.rank = i
  · have h' : k'.rank ≠ i := fun e => hk (h.trans e.symm)
    simp only [h, h', if_true, if_false, List.append_nil]
  · by_cases h' : k'.rank = i
    · simp only [h, h', if_true, if_false, List.nil_append]
    · simp only [h, h', if_false, List.append_nil, flatMap_nil']

theorem tapNotices_kind {s : State} {k : NoticeKind} {st : StreamIx} {l : List TapIx} {c : PortIx} :
    ∀ x ∈ s.tapNotices k st l c, x.1 = k := by
  intro x hx
  obtain ⟨v, -, hv⟩ := List.mem_filterMap.mp hx
  split at hv
  · split at hv <;> cases hv
    rfl
  · cases hv

end Sys2Proof.Machine
end

section
namespace Sys2Proof.Machine

section
variable {p : PortIx} {s : State}

/-- The event of an admission ends with the placing of what it posted: no block leaves a stream. -/
theorem finish_afterAdmission (s : State) (p : PortIx) : finish s ((begin_ s).afterAdmission p) =
    flush ((begin_ s).afterAdmission p) := by
  refine finish_settled (fun _ => (begin_ s).takeUpOf p) (takeUp_stream (begin_ s) p) (fun st r _ => ?_) rfl
    (fun q => ?_) rfl rfl
  · unfold State.takeUpOf
    split
    · exact ⟨rfl, fun h => by cases h⟩
    · exact ⟨rfl, id⟩
  · simp only [State.afterAdmission, vget_set]
    split
    · intro h; cases h
    · exact id

theorem enterActive_runs (hrest : s.atRest = false) (hst : (s.ports[p]).state = .admitted)
    (he : (s.ports[p]).epoch = some s.tb.beat) :
    exec (.enterActive p) s = .next (flush ((begin_ s).afterAdmission p)) := by
  have hexec : exec (.enterActive p) s = event (admitPort p) s := rfl
  have hadmit : admitPort p (begin_ s) = (begin_ s).afterAdmission p := admitPort_eq (s := begin_ s) hst he
  simp only [hexec, event, hrest, Bool.false_eq_true, if_false, hadmit, finish_afterAdmission]

theorem enterActive_idle (hrest : s.atRest = false) (h : (s.ports[p]).state ≠ .admitted ∨ (s.ports[p]).epoch ≠ some s.tb.beat) :
    exec (.enterActive p) s = .next (begin_ s) := by
  have hexec : exec (.enterActive p) s = event (admitPort p) s := rfl
  have hadmit : admitPort p (begin_ s) = begin_ s := if_neg fun e => h.elim (· e.1) (· e.2)
  simp only [hexec, event, hrest, Bool.false_eq_true, if_false, hadmit]
  exact congrArg Host.Outcome.next (finish_untouched rfl rfl (fun _ => id) rfl rfl rfl)

theorem forall_mem_flatMap {α : Type} {l : List α} {f : α → Notices} {k : NoticeKind} (h : ∀ a, ∀ x ∈ f a, x.1 = k) :
    ∀ x ∈ l.flatMap f, x.1 = k := fun x hx => by
  obtain ⟨a, -, hx⟩ := List.mem_flatMap.mp hx
  exact h a x hx

/-- What the taking up of streams tells a port, in the order of R158. -/
theorem ranked_adopts (h : s.TapsAgree) (c : PortIx) {l : List StreamIx} (hl : ∀ st ∈ l, (s.streams[st]).isSome) :
    ranked (noticesTo (.port c) (l.flatMap (s.adoptPosts p))) =
      (if c = p then l.map (fun st => (.adopted, be 1 st.val ++ [((s.streams[st]).map (·.tag)).getD 0])) else []) ++
        l.flatMap (fun st => s.tapNotices .streamResumed st (((s.streams[st]).map (·.taps)).getD []) c) := by
  have hposts : noticesTo (.port c) (l.flatMap (s.adoptPosts p)) = l.flatMap (fun st =>
      s.tapNotices .streamResumed st (((s.streams[st]).map (·.taps)).getD []) c ++
        if c = p then [(.adopted, be 1 st.val ++ [((s.streams[st]).map (·.tag)).getD 0])] else []) := by
    rw [noticesTo_flatMap]
    refine List.flatMap_congr fun st hst => ?_
    obtain ⟨r, hr⟩ := Option.isSome_iff_exists.mp (hl st hst)
    rw [noticesTo_adoptPosts h hr, hr]
    rfl
  rw [hposts]
  have hadopted : (if c = p then l.map (fun st => (NoticeKind.adopted, be 1 st.val ++ [((s.streams[st]).map (·.tag)).getD 0]))
      else []) = l.flatMap (fun st => if c = p then [(.adopted, be 1 st.val ++ [((s.streams[st]).map (·.tag)).getD 0])] else []) := by
    split
    · rw [List.map_eq_flatMap]
    · rw [flatMap_nil']
  have hr : ∀ st, ∀ x ∈ s.tapNotices .streamResumed st (((s.streams[st]).map (·.taps)).getD []) c, x.1 = .streamResumed :=
    fun st => tapNotices_kind
  have ha : ∀ st : StreamIx, ∀ x ∈ (if c = p then [(NoticeKind.adopted, be 1 st.val ++
      [((s.streams[st]).map (·.tag)).getD 0])] else []), x.1 = .adopted := fun st x hx => by
    split at hx
    · rw [List.mem_singleton.mp hx]
    · cases hx
  have hrs := forall_mem_flatMap (l := l) hr
  have has := forall_mem_flatMap (l := l) ha
  rw [hadopted]
  refine ranked_eq (fun i => ?_) ?_
  · rw [List.filter_append, filter_kind hrs, filter_kind has, filter_flatMap_kinds (by decide) hr ha]
    by_cases h6 : NoticeKind.streamResumed.rank = i
    · subst h6; rfl
    · rw [if_neg h6, if_neg h6, List.append_nil]
  · refine List.pairwise_append.mpr ⟨?_, ?_, fun x hx y hy => by rw [has x hx, hrs y hy]; decide⟩
    · exact List.pairwise_of_forall_mem_list fun x hx y hy => by rw [has x hx, has y hy]
    · exact List.pairwise_of_forall_mem_list fun x hx y hy => by rw [hrs x hx, hrs y hy]

end

/-- Settles O34: an admission posts PORT EVENT, then for each orphan in increasing stream number STREAM RESUMED and ADOPTED, and
the placing puts ADOPTED first. -/
theorem enterActive : Obligations.EnterActive := by
  intro p s hs
  obtain ⟨hrest, hres⟩ : s.atRest = false ∧ s.restarting = false := by simpa [State.inService] using hs
  refine ⟨enterActive_idle hrest, fun hst he => ⟨_, enterActive_runs hrest hst he, ?_, ?_, ?_, ?_, ?_, ?_, ?_, ?_, ?_⟩⟩
  · rw [flush_frame State.ports fun _ => by rfl]; rfl
  · rw [flush_frame State.egress fun _ => by rfl]; simp only [State.afterAdmission, vget_set, if_true]; rfl
  · have h := flush_origin (s := (begin_ s).afterAdmission p) (o := .service) (onlyNotices_admitPosts _ s p)
    rw [show ((begin_ s).afterAdmission p).posts = s.admitPosts p from rfl, noticesTo_admitPosts_service,
      ranked_of_kind (k := .portEvent) (by simp), State.told, if_neg (by simp [State.afterAdmission, hres])] at h
    exact Option.some.inj h
  · intro hlaw orphans adopted c
    have h := flush_origin (s := (begin_ s).afterAdmission p) (o := .port c) (onlyNotices_admitPosts _ s p)
    rw [show ((begin_ s).afterAdmission p).posts = s.admitPosts p from rfl, noticesTo_admitPosts_port,
      ranked_adopts (TapListLaw.agree (hlaw hrest).1) c fun st hst => isSome_of_isOrphanOf (List.mem_filter.mp hst).2, State.told,
      if_neg (by simp [State.afterAdmission, hres])] at h
    have hfilter : s.isOrphanOf p = fun st => (s.streams[st]).any (fun r => r.state == .orphaned && s.frameId p == some r.frameId) := by
      funext st; unfold State.isOrphanOf; cases s.streams[st] <;> rfl
    simp only [orphans, adopted, ← hfilter]
    exact h
  · rw [flush_frame State.taps fun _ => by rfl]; rfl
  · rw [flush_frame State.store fun _ => by rfl]; rfl
  · rw [flush_frame State.tb fun _ => by rfl]; rfl
  · intro q
    rw [flush_frame State.delays fun _ => by rfl]; simp only [State.afterAdmission, vget_set]
    by_cases hq : q = p
    · simp only [hq, if_true, true_and]; rfl
    · simp only [hq, if_false, false_and]; rfl
  · intro st r hr
    rw [flush_frame State.streams fun _ => by rfl]
    exact (takeUp_stream (begin_ s) p st).trans (by rw [show (begin_ s).streams[st] = some r from hr]; rfl)

end Sys2Proof.Machine
end

section
namespace Sys2Proof.Machine

/-! ### A port leaves service (R19, R22, R34, R35, R95) -/

/-- A stream whose close order pending has gone with the order of its origin (R95). -/
def Stream.forgets (o : Origin) (r : Stream) : Stream := if r.closeBy = some o then { r with closeBy := none } else r

theorem dropCloses_eq (o : Origin) (s : State) :
    dropCloses o s = { s with streams := s.streams.map (Option.map (Stream.forgets o)) } := by
  have h := each_streams (f := fun st => modStream st (Stream.forgets o)) (fun _ x => x.map (Stream.forgets o)) (fun _ _ => [])
    (s := s) nodup_allStreams (fun st _ streams posts => by simp only [modStream, List.append_nil]) s.streams s.posts
  have hv : (Vector.ofFn fun st : StreamIx => if st ∈ allStreams then s.streams[st].map (Stream.forgets o) else s.streams[st]) =
      s.streams.map (Option.map (Stream.forgets o)) :=
    Vector.ext fun i hi => by simp only [Vector.getElem_ofFn, mem_allStreams, if_true, Vector.getElem_map]; rfl
  rw [hv, flatMap_nil', List.append_nil] at h
  exact h

/-- A port that has entered VACANT, LISTENING or FAULTED in a cycle (R17, R19, R20, R39). -/
def Port.leaves (st : PortState) (cycle : Nat) (x : Port) : Port :=
  let y : Port := { x with
    frame := none, epoch := none, joinDeadline := none, held := false, holdBeats := 0, missRun := 0
    state := st, score := 0, fillRun := 0 }
  match st with
  | .vacant => { y with framer := .empty, failures := 0 }
  | .listening => { y with framer := .empty, silenceSince := cycle }
  | _ => y

/-- The state in which a port has gone out of service; its PORT EVENT is still to be placed. -/
def State.withPortOut (s : State) (p : PortIx) (st : PortState) (cause : PortCause) : State := { s with
  ports := s.ports.set p ((s.ports[p]).leaves st s.clock.cycle)
  origins := s.origins.set p none
  streams := s.streams.map (Option.map (Stream.forgets (.port p)))
  delays := s.delays.set p (s.delays[p]).clear
  egress := s.egress.set p { s.egress[p] with dueBeat := none }
  triggers := s.triggers.set p .initial
  drainSets := s.drainSets.set p []
  posts := s.posts ++ postsTo .service [(.portEvent, portEventFields p (s.ports[p]).state st cause (s.ports[p]).frame)] }

theorem moveTo_out {p : PortIx} {st : PortState} {cause : PortCause} {s : State}
    (h : st = .vacant ∨ st = .listening ∨ st = .faulted) : moveTo p st cause s = s.withPortOut p st cause := by
  rcases h with rfl | rfl | rfl <;>
    simp only [moveTo, enterState, outOfService, dropCloses_eq, modPort, modDelay, modEgress, emptyTriggers, modTriggers,
      setDrainSet, postPortEvent, postNotice, post, vget_set, if_true, Vector.set_set, State.withPortOut, Port.leaves] <;> rfl

/-! ### What every step of an event's end keeps -/

/-- The state of a stream, where it is not FREE. -/
def State.stateOf (s : State) (st : StreamIx) : Option StreamState := (s.streams[st]).map Stream.state

theorem stateOf_modStream {f : Stream → Stream} (hf : ∀ r, (f r).state = r.state) (st a : StreamIx) (s : State) :
    (modStream a f s).stateOf st = s.stateOf st := by
  simp only [State.stateOf, modStream, vget_set]
  split
  · subst_vars; cases s.streams[a] <;> simp [hf]
  · rfl

theorem stateOf_removeTap (t : TapIx) (st : StreamIx) (s : State) : (removeTap t s).stateOf st = s.stateOf st := by
  cases hx : s.taps[t] with
  | none => rw [removeTap_none hx]
  | some x =>
    obtain ⟨sto, he⟩ := removeTap_some hx
    rw [he]
    exact stateOf_modStream (f := Stream.loses t x.pending) (fun _ => rfl) st x.stream s

theorem stateOf_answerAs (item : PostItem) (o : Origin) (r : ResultCode) (b : List Byte) (st : StreamIx) (s : State) :
    (answerAs item o r b s).stateOf st = s.stateOf st := by
  unfold answerAs
  split
  · cases o <;> rfl
  · rfl

/-- A drain ends in DRAINING. -/
theorem stateOf_endDrain (d : PostItem) (a st : StreamIx) (s : State) : (endDrain d a s).stateOf st = s.stateOf st := by
  unfold endDrain
  split
  · rfl
  · rename_i r _
    have htaps := each_frame (g := fun u => u.stateOf st) r.taps
      (f := fun t s => s |> postConsumer t .streamEnded |> removeTap t)
      (fun t u => (stateOf_removeTap t st _).trans (by rw [postConsumer_eq]; rfl)) s
    rw [stateOf_modStream (fun _ => by rfl)]
    split
    · exact (stateOf_answerAs ..).trans htaps
    · exact htaps

/-- A property that is kept by each of the writes of which the settling of a drain is made. -/
structure DrainKeeps (d : PostItem) (P : State → Prop) : Prop where
  removeTap : ∀ t s, P s → P (removeTap t s)
  told : ∀ t s, P s → P (postConsumer t .streamEnded s)
  answered : ∀ o s, P s → P (answerAs d o .done [] s)
  ended : ∀ st s, P s → P (modStream st (fun r => { r with closeBy := none, drainDeadline := none }) s)
  freed : ∀ (st : StreamIx) (s : State) r, s.streams[st] = some r → r.state = .draining → P s →
    P { s with streams := s.streams.set st none }
  drained : ∀ p l s, P s → P (setDrainSet p ((s.drainSets[p]).filter l) s)

section
variable {d : PostItem} {P : State → Prop} (h : DrainKeeps d P)
include h

theorem DrainKeeps.endDrain {st : StreamIx} {s : State} (hs : P s) : P (endDrain d st s) := by
  unfold Machine.endDrain
  split
  · exact hs
  · rename_i r _
    have htaps : P (each r.taps (fun t s => s |> postConsumer t .streamEnded |> Machine.removeTap t) s) :=
      each_induct (fun t _ _ hs => h.removeTap t _ (h.told t _ hs)) s hs
    refine h.ended _ _ ?_
    split
    · exact h.answered _ _ htaps
    · exact htaps

theorem DrainKeeps.settleDrain {st : StreamIx} {s : State} (hs : P s) : P (settleDrain d st s) := by
  unfold Machine.settleDrain
  split
  · exact hs
  · rename_i r hr
    split
    · rename_i hd
      have hfree : ∀ u : State, P u → u.stateOf st = some .draining → P (freeStream st u) := fun u hu hst => by
        unfold freeStream
        split
        · obtain ⟨r', hr', hd'⟩ := Option.map_eq_some_iff.mp hst
          exact each_induct (fun p _ _ => h.drained p _ _) _ (h.freed st u r' hr' hd' hu)
        · exact hu
      have hstate : s.stateOf st = some .draining := by rw [State.stateOf, hr, Option.map_some, hd.1]
      split
      · exact hfree _ (h.endDrain hs) ((stateOf_endDrain d st st s).trans hstate)
      · exact hfree _ hs hstate
    · exact hs

end

/-- Every drain that settles keeps what each of its writes keeps. -/
theorem DrainKeeps.settleDrains {P : State → Prop} {s0 s : State}
    (h : DrainKeeps (if s0.tornDown s then .reply else .drainReply) P) (hs : P s) : P (settleDrains s0 s) := by
  refine each_induct (fun st _ u hu => ?_) s hs
  split
  · exact hu
  · exact h.settleDrain hu

/-- A property that is kept by each of the writes of which the end of an event is made, whatever it posts. -/
structure EndKeeps (P : State → Prop) : Prop where
  removeTap : ∀ t s, P s → P (removeTap t s)
  modOrigin : ∀ o f s, P s → P (modOrigin o f s)
  posts : ∀ s posts, P s → P { s with posts := posts }
  freeReads : ∀ s n, P s → P { s with freeReads := n }
  ended : ∀ st s, P s → P (modStream st (fun r => { r with closeBy := none, drainDeadline := none }) s)
  freed : ∀ (st : StreamIx) (s : State) r, s.streams[st] = some r → r.state = .draining → P s →
    P { s with streams := s.streams.set st none }
  drained : ∀ p l s, P s → P (setDrainSet p ((s.drainSets[p]).filter l) s)
  eased : ∀ st b s, P s → P (modStream st (fun r => { r with eased := b }) s)

section
variable {P : State → Prop} (h : EndKeeps P)
include h

theorem EndKeeps.drains (d : PostItem) : DrainKeeps d P where
  removeTap := h.removeTap
  told t s hs := by rw [postConsumer_eq]; exact h.posts _ _ hs
  answered o s hs := by
    unfold answerAs
    split
    · exact h.posts _ _ (h.modOrigin _ _ _ hs)
    · exact hs
  ended := h.ended
  freed := h.freed
  drained := h.drained

theorem EndKeeps.judgeEase {st : StreamIx} {s : State} (hs : P s) : P (judgeEase st s) := by
  cases hr : s.streams[st] with
  | none => simp only [Machine.judgeEase, hr]; exact hs
  | some r =>
    rw [judgeEase_eq hr]
    have hset : modStream st (fun r' => { r' with eased := r.judged }) s = { s with
        streams := s.streams.set st (some { r with eased := r.judged }) } := by simp only [modStream, hr, Option.map_some]
    have hp := h.posts _ (s.posts ++ r.toProducer (r.easeNotices st)) (hset ▸ h.eased st r.judged s hs)
    exact hp

theorem EndKeeps.flush {s : State} (hs : P s) : P (flush s) := by
  unfold Machine.flush
  refine each_induct (fun x _ u hu => ?_) _ (h.posts _ _ hs)
  obtain ⟨o, _ | _ | ⟨k, b⟩⟩ := x <;> exact h.modOrigin _ _ _ hu

theorem EndKeeps.postRole {p : PortIx} {n : Nat} {s : State} (hs : P s) : P (postRole p n s) := by
  unfold Machine.postRole
  split
  · exact h.posts _ _ hs
  · exact h.posts _ _ (h.freeReads _ _ hs)

theorem EndKeeps.postRoles {s0 s : State} (hs : P s) : P (postRoles s0 s) := by
  have hto : ∀ c n u, P u → P (roleTo c n u) := fun c n u hu => by
    rcases c with _ | _ | p
    · exact hu
    · exact hu
    · exact h.postRole hu
  rw [postRoles_eq]
  split
  · exact hs
  · exact hto _ _ _ (hto _ _ _ hs)

theorem EndKeeps.queueFarewells {s0 s : State} (hs : P s) : P (queueFarewells s0 s) := by
  refine each_induct (fun p _ u hu => ?_) s hs
  split
  · exact hu
  · unfold queueFarewell
    split
    · exact h.modOrigin _ _ _ hu
    · exact hu

theorem EndKeeps.judgeAllEase {s0 s : State} (hs : P s) : P (judgeAllEase s0 s) := by
  refine each_induct (fun st _ u hu => ?_) s hs
  split
  · exact hu
  · exact h.judgeEase hu

/-- The end of an event keeps what each of its writes keeps. -/
theorem EndKeeps.finish {s0 s : State} (hs : P s) : P (finish s0 s) :=
  h.queueFarewells (h.flush (h.postRoles (h.judgeAllEase ((h.drains _).settleDrains hs))))

end

end Sys2Proof.Machine
end

section
namespace Sys2Proof.Machine

/-! ### What a loss takes from the other blocks (R34, R65, R100, R131, R138) -/

/-- A stream that waits as an orphan (R100). -/
def Stream.orphan (deadline : Beat) (r : Stream) : Stream :=
  { r with state := .orphaned, producer := none, orphanDeadline := some deadline }

/-- The deadline of a stream orphaned now. -/
def State.orphanBeat (s : State) : Beat := s.tb.beat + BitVec.ofNat 32 s.settings.orphanHold

/-- The streams once those of a lost port wait as orphans. -/
def State.orphaned (s : State) (p : PortIx) : Vector (Option Stream) 64 :=
  Vector.ofFn (fun st : StreamIx =>
    if s.produces p st then s.streams[st].map (Stream.orphan s.orphanBeat) else s.streams[st])

/-- What the orphaning of a stream tells its consumers. -/
def State.orphanPosts (s : State) (st : StreamIx) : List Post :=
  match s.streams[st] with
  | none => []
  | some r => s.consumerPosts .streamOrphaned r.taps

theorem orphanStream_eq (st : StreamIx) (s : State) : orphanStream st s = { s with
    streams := s.streams.set st (s.streams[st].map (Stream.orphan s.orphanBeat)), posts := s.posts ++ s.orphanPosts st } := by
  unfold orphanStream State.orphanPosts
  cases hr : s.streams[st] with
  | none =>
    have hset : s.streams.set st none = s.streams := by rw [← hr, vset_self]
    simp only [Option.map_none, List.append_nil, hset]
  | some r =>
    simp only [each_postConsumer, modStream, hr, Option.map_some]
    rfl

theorem leaveStreams_orphan (p : PortIx) (s : State) : leaveStreams true p s = { s with
    streams := s.orphaned p, posts := s.posts ++ (allStreams.filter (s.produces p)).flatMap s.orphanPosts } := by
  have h := each_streams (f := orphanStream) (s := s) (fun _ o => o.map (Stream.orphan s.orphanBeat)) (fun _ o => match o with
    | none => []
    | some r => s.consumerPosts .streamOrphaned r.taps) (nodup_allStreams.filter (s.produces p))
    (fun st _ _ _ => orphanStream_eq st _) s.streams s.posts
  simp only [List.mem_filter, mem_allStreams, true_and] at h
  exact h

theorem orphaned_stream (s : State) (p : PortIx) (st : StreamIx) : (s.orphaned p)[st] =
    if s.produces p st then s.streams[st].map (Stream.orphan s.orphanBeat) else s.streams[st] := by
  simp only [State.orphaned, Fin.getElem_fin, Vector.getElem_ofFn, Fin.eta]

/-- Some taps of a port have been removed: taps, FIFOs, tap lists and the store have changed, and no FIFO where the taps of the
port hold nothing. -/
def Untapped (p : PortIx) (s u : State) : Prop :=
  ∃ streams taps store, u = { s with streams := streams, taps := taps, store := store } ∧
    (∀ (t : TapIx) x, taps[t] = some x → s.taps[t] = some x) ∧
    ∀ st : StreamIx, ∃ fifo left, streams[st] = s.streams[st].map (fun r => { r with fifo := fifo, taps := left }) ∧
      ((∀ (t : TapIx) x, s.taps[t] = some x → x.consumer = p → x.pending = []) → ∀ r, s.streams[st] = some r → fifo = r.fifo)

theorem Untapped.refl (p : PortIx) (s : State) : Untapped p s s := by
  refine ⟨_, _, _, rfl, fun _ _ hx => hx, fun st => ?_⟩
  cases hr : s.streams[st] with
  | none => exact ⟨[], [], rfl, fun _ r hr => by cases hr⟩
  | some r => exact ⟨r.fifo, r.taps, rfl, fun _ r' hr' => by cases hr'; rfl⟩

theorem Untapped.removeTap {p : PortIx} {s u : State} {t : TapIx} (ht : ∀ x, s.taps[t] = some x → x.consumer = p)
    (h : Untapped p s u) : Untapped p s (removeTap t u) := by
  obtain ⟨streams, taps, store, rfl, htaps, hstreams⟩ := h
  cases hx : taps[t] with
  | none => rw [removeTap_none hx]; exact ⟨_, _, _, rfl, htaps, hstreams⟩
  | some x =>
    obtain ⟨sto, he⟩ := removeTap_some (s := { s with streams := streams, taps := taps, store := store }) hx
    refine ⟨_, _, _, he, fun v y hy => htaps v y ?_, fun st => ?_⟩
    · simp only [vget_set] at hy
      split at hy
      · cases hy
      · exact hy
    · obtain ⟨fifo, left, hst, hf⟩ := hstreams st
      by_cases hxs : st = x.stream
      · subst hxs
        refine ⟨dropReferences x.pending fifo, left.filter (· != t), ?_, fun hp r hr => ?_⟩
        · simp only [vget_set, if_true, hst, Option.map_map]; rfl
        · have hnil : x.pending = [] := hp t x (htaps t x hx) (ht x (htaps t x hx))
          rw [hnil, ← hf hp r hr]; rfl
      · exact ⟨fifo, left, by simp only [vget_set, hxs, if_false, hst], hf⟩

/-- A removed tap is gone, and the removal of others brings none back. -/
theorem removeTap_gone {t j : TapIx} {s : State} (h : t = j ∨ s.taps[t] = none) : (removeTap j s).taps[t] = none := by
  cases hj : s.taps[j] with
  | none =>
    rw [removeTap_none hj]
    exact h.elim (fun e => e ▸ hj) id
  | some x =>
    obtain ⟨_, hr⟩ := removeTap_some hj
    rw [hr, vget_set]
    split
    · rfl
    · exact h.resolve_left ‹_›

theorem removePortTaps_untaps (p : PortIx) (s : State) : Untapped p s (removePortTaps p s) :=
  each_induct (fun t ht _ hu => hu.removeTap fun x hx => by
    simpa [State.tapsOf, -Fin.getElem_fin, hx] using (List.mem_filter.mp ht).2) s (.refl p s)

/-- No tap of the port is left. -/
theorem removePortTaps_gone {p : PortIx} {s : State} {t : TapIx} {x : Tap} (hx : (removePortTaps p s).taps[t] = some x) :
    x.consumer ≠ p := by
  rintro hp
  obtain ⟨_, _, _, he, htaps, -⟩ := removePortTaps_untaps p s
  have hs : s.taps[t] = some x := htaps t x (by rw [he] at hx; exact hx)
  have ht : t ∈ s.tapsOf p := List.mem_filter.mpr ⟨List.mem_finRange t, by simp [-Fin.getElem_fin, hs, hp]⟩
  obtain ⟨w, hw⟩ := each_at (f := removeTap) ((List.nodup_finRange 128).filter _) ht s
  have hgone := (hw (fun u => u.taps[t] = none) fun j _ _ u hu => removeTap_gone (.inr hu)).2 (removeTap_gone (.inl rfl))
  exact absurd hx (by rw [show (removePortTaps p s).taps[t] = none from hgone]; simp)

/-- What the withdrawal of a candidacy leaves of the timebase, and tells S. -/
def State.withdrawn (s : State) (p : PortIx) : Timebase × Notices :=
  if (s.tb.candidates[p]).isSome then
    ({ s with tb := { s.tb with candidates := s.tb.candidates.set p none } }).selection 6
  else (s.tb, [])

theorem withdrawPort_eq (p : PortIx) (s : State) : withdrawPort p s = { s with
    tb := (s.withdrawn p).1, posts := s.posts ++ postsTo .service (s.withdrawn p).2 } := by
  unfold withdrawPort State.withdrawn
  split
  · rw [reselect_eq]; rfl
  · simp only [postsTo, List.map_nil, List.append_nil]

theorem withdrawn_congr {s u : State} (ht : u.tb = s.tb) (hs : u.settings = s.settings) (hc : u.clock = s.clock)
    (p : PortIx) : u.withdrawn p = s.withdrawn p := by
  simp only [State.withdrawn, ht]
  rw [selection_congr (s := { s with tb := { s.tb with candidates := s.tb.candidates.set p none } })
    (u := { u with tb := { s.tb with candidates := s.tb.candidates.set p none } }) rfl hs hc]

/-- The withdrawal leaves no candidacy of the port, and every other as it was. -/
theorem withdrawn_candidates (s : State) (p : PortIx) : (s.withdrawn p).1.candidates = s.tb.candidates.set p none := by
  unfold State.withdrawn
  split
  · exact (selection_selected _ 6).1
  · rename_i h
    have : s.tb.candidates[p] = none := by simpa using h
    rw [← this, vset_self]

theorem leaveLines_spec (p : PortIx) (s : State) : ∃ lines, leaveLines p s = { s with lines := lines } ∧
    ∀ l : LineIx, (lines[l]).subscribers[p] = false := by
  obtain ⟨lines, he⟩ : ∃ lines, leaveLines p s = { s with lines := lines } :=
    each_induct (P := fun u => ∃ lines, u = { s with lines := lines })
      (fun l _ u hu => by obtain ⟨lines, rfl⟩ := hu; exact ⟨_, rfl⟩) s ⟨_, rfl⟩
  refine ⟨lines, he, fun l => ?_⟩
  obtain ⟨w, hw⟩ := each_at (f := fun l => modLine l (fun x => { x with subscribers := x.subscribers.set p false }))
    (List.nodup_finRange 32) (List.mem_finRange l) s
  have hl : ((leaveLines p s).lines[l]).subscribers[p] = false :=
    (hw (fun u => (u.lines[l]).subscribers[p] = false) fun j _ _ u hu => ?_).2 ?_
  · rw [he] at hl; exact hl
  · simp only [modLine, vget_set]
    split
    · subst_vars; simp only [vget_set, if_true]
    · exact hu
  · simp only [modLine, vget_set, if_true]

/-- What the teardown of a lost port tells the consumers of its streams. -/
def State.lossPosts (w : State) (p : PortIx) : List Post :=
  if (w.ports[p]).state = .active then (allStreams.filter (w.produces p)).flatMap w.orphanPosts else []

/-- What a loss does before the port itself goes out of service: the teardown of an ACTIVE port, and nothing of another. -/
def LossAround (p : PortIx) (w v : State) : Prop :=
  ∃ streams taps store lines triggers, v = { w with
    streams := streams, taps := taps, store := store, lines := lines, triggers := triggers, tb := (w.withdrawal p).1
    posts := w.posts ++ w.lossPosts p ++ postsTo .service (w.withdrawal p).2 } ∧
  ((w.ports[p]).state ≠ .active → streams = w.streams) ∧
  ((w.ports[p]).state = .active → (∀ (t : TapIx) x, taps[t] = some x → x.consumer ≠ p) ∧
    (∀ l : LineIx, (lines[l]).subscribers[p] = false) ∧
    ∀ st : StreamIx, ∃ fifo left, streams[st] = ((w.orphaned p)[st]).map (fun r => { r with fifo := fifo, taps := left }) ∧
      ((∀ (t : TapIx) x, w.taps[t] = some x → x.consumer = p → x.pending = []) →
        ∀ r, w.streams[st] = some r → fifo = r.fifo))

theorem teardown_loss {p : PortIx} {w : State} (h : (w.ports[p]).state = .active) : LossAround p w (teardown true p w) := by
  have hw : w.withdrawal p = w.withdrawn p := by
    simp only [State.withdrawal, State.withdrawn, h, true_and]
  obtain ⟨streams, taps, store, he, -, hstreams⟩ := removePortTaps_untaps p (leaveStreams true p w)
  have hgone : ∀ (t : TapIx) x, taps[t] = some x → x.consumer ≠ p := fun t x hx =>
    removePortTaps_gone (s := leaveStreams true p w) (by rw [he]; exact hx)
  obtain ⟨lines, hl, hsub⟩ := leaveLines_spec p (withdrawPort p (removePortTaps p (leaveStreams true p w)))
  refine ⟨streams, taps, store, lines, w.triggers.set p .initial, ?_, fun hn => absurd h hn, fun _ => ⟨hgone, hsub, fun st => ?_⟩⟩
  · have hcongr := withdrawn_congr (s := w) (u := { w with
      streams := streams, taps := taps, store := store
      posts := w.posts ++ (allStreams.filter (w.produces p)).flatMap w.orphanPosts }) rfl rfl rfl p
    have ht : teardown true p w =
        emptyTriggers p (leaveLines p (withdrawPort p (removePortTaps p (leaveStreams true p w)))) := rfl
    rw [ht, hl, withdrawPort_eq, he, leaveStreams_orphan, hcongr, hw, State.lossPosts, if_pos h]
    rfl
  · obtain ⟨fifo, left, hst, hf⟩ := hstreams st
    rw [leaveStreams_orphan] at hst hf
    refine ⟨fifo, left, hst, fun hp r hr => ?_⟩
    by_cases ho : w.produces p st = true
    · exact hf hp (r.orphan w.orphanBeat) ((orphaned_stream w p st).trans (by rw [if_pos ho, hr]; rfl))
    · exact hf hp r ((orphaned_stream w p st).trans (by rw [if_neg ho, hr]))

/-- A loss on a port whose framer runs. -/
theorem takeLoss_eq {p : PortIx} {cause : PortCause} {w : State} (hf : (w.ports[p]).state.framerRuns = true) :
    ∃ v, LossAround p w v ∧ takeLoss p cause w = v.withPortOut p (w.byPresence p) cause := by
  have hpres : w.byPresence p = .vacant ∨ w.byPresence p = .listening ∨ w.byPresence p = .faulted := by
    unfold State.byPresence; split
    · exact .inr (.inl rfl)
    · exact .inl rfl
  by_cases h : (w.ports[p]).state = .active
  · refine ⟨teardown true p w, teardown_loss h, ?_⟩
    simp only [takeLoss, h, if_true]
    exact moveTo_out hpres
  · refine ⟨w, ⟨w.streams, w.taps, w.store, w.lines, w.triggers, ?_, fun _ => rfl, fun e => absurd e h⟩, ?_⟩
    · simp only [State.withdrawal, State.lossPosts, h, false_and, if_false, postsTo, List.map_nil, List.append_nil]
    · simp only [takeLoss, hf, h, if_true, if_false]
      exact moveTo_out hpres

end Sys2Proof.Machine
end

section
namespace Sys2Proof.Machine

/-! ### The timebase of a loss (R64, R65, R68) -/

/-- What selection leaves of the timebase reads of the clock the cycle alone. -/
theorem selection_tb_congr {s u : State} (ht : u.tb = s.tb) (hs : u.settings = s.settings)
    (hc : u.clock.cycle = s.clock.cycle) (gone : Nat) : (u.selection gone).1 = (s.selection gone).1 := by
  have h := selection_congr (s := { s with clock := u.clock }) (u := u) ht hs rfl gone
  rw [h]
  have hb : ({ s with clock := u.clock } : State).best = s.best := (best_congr rfl rfl rfl rfl rfl).2
  have hse : ({ s with clock := u.clock } : State).selectedEligible = s.selectedEligible := by
    simp only [State.selectedEligible, (best_congr (s := s) (u := { s with clock := u.clock }) rfl rfl rfl rfl rfl).1]
  have hcls : ({ s with clock := u.clock } : State).classOf s.tb.selected = s.classOf s.tb.selected := by
    have : ({ s with clock := u.clock } : State).candidacy = s.candidacy := funext fun c => candidacy_congr rfl rfl rfl c
    simp only [State.classOf, this]
  simp only [State.selection, hb, hse, hc, hcls]
  cases s.tb.state <;> cases s.selectedEligible <;> rcases s.best with _ | ⟨c, y⟩ <;> dsimp only
  case acquiring.true.some | locked.true.some => split <;> rfl

/-- A state in which a loss is taken: the event has begun, its time may have moved on, the measures and the delay record of
the port may have changed, and a slot of the reference may have been counted. -/
def LossFrom (p : PortIx) (s w : State) : Prop := ∃ elapsed x d tb, w = { s with
    clock := { s.clock with elapsed := elapsed }, ports := s.ports.set p x, delays := s.delays.set p d, tb := tb, posts := [] } ∧
  x.state = (s.ports[p]).state ∧ x.frame = (s.ports[p]).frame ∧
  (tb = s.tb ∨ s.isReference (.port p) = true ∧ tb = { s.tb with edges := s.tb.edges + 1 })

/-- A state without the candidacy of a port, at a later time of its cycle. -/
def State.unlisted (s : State) (p : PortIx) (elapsed : Nat) : State := { s with
  clock := { s.clock with elapsed := elapsed }, tb := { s.tb with candidates := s.tb.candidates.set p none } }

section
variable {p : PortIx} {s w : State} (h : LossFrom p s w)
include h

theorem LossFrom.state : (w.ports[p]).state = (s.ports[p]).state ∧ (w.ports[p]).frame = (s.ports[p]).frame := by
  obtain ⟨e, x, d, tb, rfl, hst, hfr, -⟩ := h
  simp only [vget_set, if_true]
  exact ⟨hst, hfr⟩

theorem LossFrom.modPort {g : Port → Port} (hst : ∀ x, (g x).state = x.state) (hfr : ∀ x, (g x).frame = x.frame) :
    LossFrom p s (modPort p g w) := by
  obtain ⟨e, x, d, tb, rfl, hs, hf, htb⟩ := h
  refine ⟨e, g x, d, tb, ?_, (hst x).trans hs, (hfr x).trans hf, htb⟩
  simp only [Machine.modPort, vget_set, if_true, Vector.set_set]

theorem LossFrom.posts : w.posts = [] := by
  obtain ⟨e, x, d, tb, rfl, -⟩ := h
  rfl

/-- The withdrawal of a lost port's candidacy, with the notices at the rack time of the loss. -/
theorem LossFrom.withdrawal : (w.withdrawal p).2 = (({ s with clock := w.clock }).withdrawal p).2 ∧
    ((w.withdrawal p).1 = (s.withdrawal p).1 ∨ s.isReference (.port p) = true ∧
      ((w.withdrawal p).1.selected = none ∨ (w.withdrawal p).1.selected = some (.port p)) ∧
      (w.withdrawal p).1 = { (s.withdrawal p).1 with edges := s.tb.edges + 1 }) := by
  have hstate := h.state.1
  obtain ⟨e, x, d, tb, rfl, -, -, htb⟩ := h
  have hcand : tb.candidates = s.tb.candidates := by rcases htb with rfl | ⟨-, rfl⟩ <;> rfl
  simp only [State.withdrawal, hstate, hcand]
  by_cases hw : (s.ports[p]).state = .active ∧ (s.tb.candidates[p]).isSome
  · simp only [if_pos hw]
    have hlater : ((s.unlisted p e).selection 6).1 = ((s.unlisted p s.clock.elapsed).selection 6).1 :=
      selection_tb_congr (u := s.unlisted p e) (s := s.unlisted p s.clock.elapsed) rfl rfl rfl 6
    rcases htb with rfl | ⟨href, rfl⟩
    · exact ⟨congrArg Prod.snd (selection_congr rfl rfl rfl 6),
        .inl ((congrArg Prod.fst (selection_congr (s := s.unlisted p e) rfl rfl rfl 6)).trans hlater)⟩
    · generalize hx : State.selection _ 6 = left
      have hleft : left = ({ s.unlisted p e with tb := { (s.unlisted p e).tb with edges := s.tb.edges + 1 } } : State).selection 6 :=
        hx.symm.trans (selection_congr rfl rfl rfl 6)
      rw [hleft]
      obtain ⟨h2, h1⟩ := selection_edges (s.unlisted p e) (s.tb.edges + 1) 6
      have hsel : s.tb.selected = some (.port p) := by
        simp only [State.isReference, Bool.and_eq_true, decide_eq_true_eq] at href
        exact href.1
      refine ⟨h2, h1.imp (·.trans hlater) fun ⟨heq, hs⟩ => ⟨href, ?_, heq.trans (by rw [hlater]; rfl)⟩⟩
      rw [heq]
      exact hs.imp id (·.trans hsel)
  · simp only [if_neg hw, true_and]
    rcases htb with rfl | ⟨href, rfl⟩
    · exact .inl rfl
    · refine .inr ⟨href, .inr ?_, rfl⟩
      simp only [State.isReference, Bool.and_eq_true, decide_eq_true_eq] at href
      exact href.1

end

end Sys2Proof.Machine
end

section
namespace Sys2Proof.Machine

/-! ### What the end of an event leaves of a stream, a tap and a port out of service -/

/-- A stream without what the end of an event may change of it: ease, blocks, tap list, drain deadline and close order. -/
def Stream.core (r : Stream) : Stream := { r with eased := false, fifo := [], taps := [], drainDeadline := none, closeBy := none }

def State.coreOf (s : State) (st : StreamIx) : Option Stream := (s.streams[st]).map Stream.core

theorem coreOf_modStream {f : Stream → Stream} (hf : ∀ r, (f r).core = r.core) (st a : StreamIx) (s : State) :
    (modStream a f s).coreOf st = s.coreOf st := by
  simp only [State.coreOf, modStream, vget_set]
  split
  · subst_vars; cases s.streams[a] <;> simp [hf]
  · rfl

theorem coreOf_removeTap (t : TapIx) (st : StreamIx) (s : State) : (removeTap t s).coreOf st = s.coreOf st := by
  cases hx : s.taps[t] with
  | none => rw [removeTap_none hx]
  | some x =>
    obtain ⟨sto, he⟩ := removeTap_some hx
    rw [he]
    exact coreOf_modStream (f := Stream.loses t x.pending) (fun _ => rfl) st x.stream s

/-- The core of a stream stands, or the stream, DRAINING, becomes FREE. -/
theorem coreOf_keeps (st : StreamIx) (c : Option Stream) :
    EndKeeps (fun s => s.coreOf st = c ∨ s.coreOf st = none ∧ c.map Stream.state = some .draining) where
  removeTap t s hs := by rw [coreOf_removeTap]; exact hs
  modOrigin o f s hs := by cases o <;> exact hs
  posts _ _ hs := hs
  freeReads _ _ hs := hs
  ended a s hs := by rw [coreOf_modStream (fun _ => by rfl)]; exact hs
  freed a s r hr hd hs := by
    by_cases ha : st = a
    · subst ha
      refine .inr ⟨by simp only [State.coreOf, vget_set, if_true, Option.map_none], ?_⟩
      rcases hs with rfl | ⟨-, hc⟩
      · rw [State.coreOf, hr, Option.map_some, Option.map_some]; exact congrArg some hd
      · exact hc
    · simpa only [State.coreOf, vget_set, ha, if_false] using hs
  drained _ _ _ hs := hs
  eased a b s hs := by rw [coreOf_modStream (fun _ => by rfl)]; exact hs

/-- No tap of the port is left, and none comes with the end of an event. -/
theorem untapped_keeps (p : PortIx) : EndKeeps (fun s => ∀ (t : TapIx) x, s.taps[t] = some x → x.consumer ≠ p) where
  removeTap t s hs v x hx := by
    cases hy : s.taps[t] with
    | none => rw [removeTap_none hy] at hx; exact hs v x hx
    | some y =>
      obtain ⟨_, he⟩ := removeTap_some hy
      rw [he, vget_set] at hx
      split at hx
      · cases hx
      · exact hs v x hx
  modOrigin o f s hs := by cases o <;> exact hs
  posts _ _ hs := hs
  freeReads _ _ hs := hs
  ended _ _ hs := hs
  freed _ _ _ _ _ hs := hs
  drained _ _ _ hs := hs
  eased _ _ _ hs := hs

/-- A port origin without a queue and an empty drain set stay so. -/
theorem emptyOrigin_keeps (p : PortIx) : EndKeeps (fun s => s.origins[p] = none ∧ s.drainSets[p] = []) where
  removeTap t s hs := by
    cases hy : s.taps[t] with
    | none => rw [removeTap_none hy]; exact hs
    | some y => obtain ⟨_, he⟩ := removeTap_some hy; rw [he]; exact hs
  modOrigin o f s hs := by
    cases o with
    | service => exact hs
    | port q =>
      refine ⟨?_, hs.2⟩
      rw [modOrigin_port_origins, vget_set]
      split
      · subst_vars; rw [hs.1]; rfl
      · exact hs.1
  posts _ _ hs := hs
  freeReads _ _ hs := hs
  ended _ _ hs := hs
  freed _ _ _ _ _ hs := hs
  drained q l s hs := by
    refine ⟨hs.1, ?_⟩
    simp only [setDrainSet, vget_set]
    split
    · subst_vars; rw [hs.2]; rfl
    · exact hs.2
  eased _ _ _ hs := hs

/-- A port that an event takes out of service holds nothing at its end. -/
theorem holdsNothing_finish {p : PortIx} {st : PortState} {cause : PortCause} {s v : State}
    (h : st = .vacant ∨ st = .listening ∨ st = .faulted) : (finish s (v.withPortOut p st cause)).HoldsNothing p := by
  have ht := tables_finish s (v.withPortOut p st cause)
  obtain ⟨ho, hd⟩ := (emptyOrigin_keeps p).finish (s0 := s) (s := v.withPortOut p st cause)
    ⟨by simp only [State.withPortOut, vget_set, if_true], by simp only [State.withPortOut, vget_set, if_true]⟩
  have hport : (finish s (v.withPortOut p st cause)).ports[p] = (v.ports[p]).leaves st v.clock.cycle := by
    rw [ht.ports]; simp only [State.withPortOut, vget_set, if_true]
  have hdelay : (finish s (v.withPortOut p st cause)).delays[p] = (v.delays[p]).clear := by
    rw [ht.delays]; simp only [State.withPortOut, vget_set, if_true]
  have hegress : ((finish s (v.withPortOut p st cause)).egress[p]).dueBeat = none := by
    rw [ht.egress]; simp only [State.withPortOut, vget_set, if_true]
  have htriggers : (finish s (v.withPortOut p st cause)).triggers[p] = .initial := by
    rw [ht.triggers]; simp only [State.withPortOut, vget_set, if_true]
  unfold State.HoldsNothing
  rw [ho, hd, hport, hdelay, hegress, htriggers]
  rcases h with rfl | rfl | rfl <;> exact ⟨rfl, rfl, rfl, rfl, rfl, rfl, rfl, rfl, rfl, rfl, rfl, rfl, rfl, rfl, rfl⟩

end Sys2Proof.Machine
end

section
namespace Sys2Proof.Machine

/-! ### A reply placed before the notices of its event (R158) -/

theorem filter_rank_zero (l : Notices) : l.filter (fun x => x.1.rank == 0) = [] :=
  List.filter_eq_nil_iff.mpr fun x _ => by cases x.1 <;> decide

theorem each_place_told {o : Origin} {l : List Post} {s : State} (h : OnlyNotices o l) (hn : noticesTo o l = []) :
    (each l place s).origin o = s.origin o := by
  rw [each_place_origin h, hn]
  cases s.origin o <;> rfl

/-- What the end of an event places at an origin to which it posted one reply and, besides, notices alone (R158). -/
theorem flush_reply_notices {s : State} {o : Origin} {a b : List Post} (hr : s.restarting = false)
    (hp : s.posts = a ++ ⟨o, .reply⟩ :: b) (ha : OnlyNotices o a) (hb : OnlyNotices o b) :
    (flush s).origin o = (s.origin o).map (fun q => q.placeReply.told (ranked (noticesTo o (a ++ b)))) := by
  have hfilter : ∀ l : List Post, OnlyNotices o l → noticesTo o (l.filter (fun x => x.rank s.posts == 0)) = [] := fun l _ => by
    rw [noticesTo_filter_rank, filter_rank_zero]
  have honly : ∀ {l : List Post} (f : Post → Bool), OnlyNotices o l → OnlyNotices o (l.filter f) :=
    fun f h x hx => h x (List.mem_of_mem_filter hx)
  have hnotices : noticesTo o s.posts = noticesTo o (a ++ b) := by
    rw [hp, noticesTo_append, noticesTo_append]
    exact congrArg _ (by simp [noticesTo])
  have hzero : s.posts.filter (fun x => x.rank s.posts == 0) = a.filter (fun x => x.rank s.posts == 0) ++
      ⟨o, .reply⟩ :: b.filter (fun x => x.rank s.posts == 0) := by
    conv_lhs => rw [hp]
    rw [List.filter_append, List.filter_cons, if_pos (by simp [Post.rank]), ← hp]
  have hrest : ∀ i x, x ∈ s.posts.filter (fun x => x.rank s.posts == i + 1) → x.dest = o → ∃ k b, x.item = .notice k b :=
    fun i x hx hd => by
      obtain ⟨hx, hi⟩ := List.mem_filter.mp hx
      rw [hp] at hx
      rcases List.mem_append.mp hx with hx | hx
      · exact ha x hx hd
      · rcases List.mem_cons.mp hx with rfl | hx
        · simp [Post.rank] at hi
        · exact hb x hx hd
  unfold flush
  simp only [show (if s.restarting then [] else s.posts) = s.posts by rw [hr]; rfl]
  rw [List.range_succ_eq_map, List.flatMap_cons, each_append, hzero, each_append, each_cons, each_place_origin,
    each_place_told (honly _ hb) (hfilter b hb)]
  · have hplaced : (place ⟨o, .reply⟩ (each (a.filter fun x => x.rank s.posts == 0) place { s with posts := [] })).origin o =
        (s.origin o).map OriginState.placeReply := by
      simp only [place, modOrigin_origin, if_true]
      rw [each_place_told (honly _ ha) (hfilter a ha)]
      cases o <;> rfl
    have hrank : noticesTo o (((List.range 11).map Nat.succ).flatMap (fun k => s.posts.filter (fun x => x.rank s.posts == k))) =
        ranked (noticesTo o (a ++ b)) := by
      rw [noticesTo_flatMap, ranked, List.range_succ_eq_map (n := 11), List.flatMap_cons, filter_rank_zero, List.nil_append]
      exact List.flatMap_congr fun k _ => by rw [noticesTo_filter_rank, hnotices]
    rw [hplaced, hrank, Option.map_map]
    rfl
  · intro x hx hd
    obtain ⟨k, hk, hx⟩ := List.mem_flatMap.mp hx
    obtain ⟨i, -, rfl⟩ := List.mem_map.mp hk
    exact hrest i x hx hd

/-! ### What the end of the event of a loss tells S (R41, R78, R95, R98) -/

/-- Of what is posted S gets notices, and at most one reply: the DONE of its close order, which was RUNNING. -/
def ServiceTold (q : OriginState) (l : Notices) (u : State) : Prop :=
  (u.service.origin = q ∧ OnlyNotices .service u.posts ∧ noticesTo .service u.posts = l) ∨
  ∃ ident code, q.slot = some ⟨ident, code, none⟩ ∧
    u.service.origin = { q with slot := some ⟨ident, code, some (.done, [])⟩ } ∧
    ∃ a b, u.posts = a ++ ⟨.service, .reply⟩ :: b ∧ OnlyNotices .service a ∧ OnlyNotices .service b ∧
      noticesTo .service (a ++ b) = l

theorem notTo_service {l : List Post} (h : ∀ x ∈ l, x.dest ≠ .service) :
    OnlyNotices .service l ∧ noticesTo .service l = [] := by
  refine ⟨fun x hx hd => absurd hd (h x hx), List.filterMap_eq_nil_iff.mpr fun x hx => ?_⟩
  obtain ⟨d, item⟩ := x
  have hd : d ≠ .service := h _ hx
  cases item <;> simp [hd]

/-- Posts to the ports do not concern S. -/
theorem ServiceTold.posts {q : OriginState} {l : Notices} {u u' : State} {x : List Post} (h : ServiceTold q l u)
    (ho : u'.service.origin = u.service.origin) (hp : u'.posts = u.posts ++ x) (hx : ∀ y ∈ x, y.dest ≠ .service) :
    ServiceTold q l u' := by
  obtain ⟨hxo, hxn⟩ := notTo_service hx
  rcases h with ⟨hq, hon, hl⟩ | ⟨i, c, hs, hq, a, b, hab, ha, hb, hl⟩
  · exact .inl ⟨ho.trans hq, hp ▸ onlyNotices_append hon hxo, by rw [hp, noticesTo_append, hl, hxn, List.append_nil]⟩
  · refine .inr ⟨i, c, hs, ho.trans hq, a, b ++ x, by rw [hp, hab, List.append_assoc]; rfl, ha, onlyNotices_append hb hxo, ?_⟩
    rw [← List.append_assoc, noticesTo_append, hl, hxn, List.append_nil]

theorem ServiceTold.same {q : OriginState} {l : Notices} {u u' : State} (h : ServiceTold q l u)
    (ho : u'.service = u.service) (hp : u'.posts = u.posts) : ServiceTold q l u' :=
  h.posts (x := []) (by rw [ho]) (by rw [hp, List.append_nil]) fun _ hy => by cases hy

theorem consumerPosts_dest {s : State} {k : NoticeKind} {l : List TapIx} : ∀ y ∈ s.consumerPosts k l, y.dest ≠ .service := by
  intro y hy
  obtain ⟨v, -, hv⟩ := List.mem_filterMap.mp hy
  obtain ⟨x, -, rfl⟩ := Option.map_eq_some_iff.mp hv
  simp

theorem toProducer_dest {r : Stream} {l : Notices} : ∀ y ∈ r.toProducer l, y.dest ≠ .service := by
  intro y hy
  unfold Stream.toProducer at hy
  cases hp : r.producer with
  | none => rw [hp] at hy; simp at hy
  | some p =>
    rw [hp] at hy
    obtain ⟨x, -, rfl⟩ := List.mem_map.mp hy
    simp

/-- The drains that end in a teardown answer S at most once. -/
theorem serviceTold_drains (q : OriginState) (l : Notices) : DrainKeeps .reply (ServiceTold q l) where
  removeTap t s hs := by
    cases hx : s.taps[t] with
    | none => rw [removeTap_none hx]; exact hs
    | some x => obtain ⟨_, he⟩ := removeTap_some hx; exact hs.same (by rw [he]) (by rw [he])
  told t s hs := hs.posts (by rw [postConsumer_eq]) (by rw [postConsumer_eq]) consumerPosts_dest
  answered o s hs := by
    cases o with
    | port p =>
      unfold answerAs
      split
      · exact hs.posts (x := [⟨.port p, .reply⟩]) rfl rfl fun y hy => by rw [List.mem_singleton.mp hy]; simp
      · exact hs
    | service =>
      rcases hs with ⟨hq, hon, hl⟩ | ⟨i, c, hslot, hq, hrest⟩
      · by_cases hrun : ∃ i c, q.slot = some ⟨i, c, none⟩
        · obtain ⟨i, c, hslot⟩ := hrun
          rw [answerAs_running (i := i) (c := c) (by rw [State.origin, hq]; exact hslot)]
          refine .inr ⟨i, c, hslot, by rw [← hq]; rfl, s.posts, [], rfl, hon, fun x hx => by (cases hx), ?_⟩
          rw [List.append_nil, hl]
        · rw [answerAs_idle fun i c => by rw [State.origin, hq]; exact fun e => hrun ⟨i, c, e⟩]
          exact .inl ⟨hq, hon, hl⟩
      · rw [answerAs_idle fun i' c' => by rw [State.origin, hq]; simp]
        exact .inr ⟨i, c, hslot, hq, hrest⟩
  ended st s hs := hs.same rfl rfl
  freed st s _ _ _ hs := hs.same rfl rfl
  drained p f s hs := hs.same rfl rfl

theorem serviceTold_judgeAllEase {q : OriginState} {l : Notices} {s0 s : State} (hs : ServiceTold q l s) :
    ServiceTold q l (judgeAllEase s0 s) := by
  refine each_induct (fun st _ u hu => ?_) s hs
  split
  · exact hu
  · cases hr : u.streams[st] with
    | none => simp only [judgeEase, hr]; exact hu
    | some r => rw [judgeEase_eq hr]; exact hu.posts rfl rfl toProducer_dest

theorem serviceTold_roleTo {q : OriginState} {l : Notices} (c : Option Source) (n : Nat) {s : State} (hs : ServiceTold q l s) :
    ServiceTold q l (roleTo c n s) := by
  rcases c with _ | _ | p
  · exact hs
  · exact hs
  · have hpost : ∃ b freeReads, postRole p n s = { s with
        posts := s.posts ++ [⟨.port p, .notice .referenceRole b⟩], freeReads := freeReads } := by
      unfold postRole; split <;> exact ⟨_, _, rfl⟩
    obtain ⟨b, fr, he⟩ := hpost
    rw [show roleTo (some (.port p)) n s = postRole p n s from rfl, he]
    exact hs.posts rfl rfl fun y hy => by rw [List.mem_singleton.mp hy]; simp

theorem serviceTold_postRoles {q : OriginState} {l : Notices} {s0 s : State} (hs : ServiceTold q l s) :
    ServiceTold q l (postRoles s0 s) := by
  rw [postRoles_eq]
  split
  · exact hs
  · exact serviceTold_roleTo _ _ (serviceTold_roleTo _ _ hs)

/-- The placing gives S the DONE of its close order first, then the notices. -/
theorem ServiceTold.flush {q : OriginState} {l : Notices} {u : State} (h : ServiceTold q l u) (hr : u.restarting = false) :
    (flush u).service.origin = q.told (ranked l) ∨ (flush u).service.origin = q.closeAnswered.told (ranked l) := by
  rcases h with ⟨hq, hon, hl⟩ | ⟨i, c, hslot, hq, a, b, hab, ha, hb, hl⟩
  · have h := flush_origin (o := .service) hon
    rw [State.told, if_neg (by rw [hr]; simp), hl] at h
    exact .inl (by rw [← hq]; exact Option.some.inj h)
  · have h := flush_reply_notices (o := .service) hr hab ha hb
    rw [hl] at h
    refine .inr ((Option.some.inj h).trans ?_)
    rw [hq]
    simp only [OriginState.closeAnswered, hslot]

/-- The farewells of the end of an event go to ports. -/
theorem queueFarewells_service (s0 s : State) : (queueFarewells s0 s).service = s.service :=
  each_frame (g := State.service) allPorts (fun p u => by
    split
    · rfl
    · unfold queueFarewell; split <;> rfl) s

end Sys2Proof.Machine
end

section
namespace Sys2Proof.Machine

theorem vget_map {α β : Type} {n : Nat} (v : Vector α n) (f : α → β) (i : Fin n) : (v.map f)[i] = f v[i] := by
  simp only [Fin.getElem_fin, Vector.getElem_map]

theorem selection_kind (s : State) (gone : Nat) : ∀ x ∈ (s.selection gone).2, x.1 = .timebaseEvent := by
  simp only [State.selection]
  rcases s.best with _ | ⟨c, y⟩ <;> cases s.tb.state <;> cases s.selectedEligible
  case some.acquiring.true | some.locked.true => dsimp only; split <;> simp
  all_goals simp

theorem withdrawal_kind (s : State) (p : PortIx) : ∀ x ∈ (s.withdrawal p).2, x.1 = .timebaseEvent := by
  unfold State.withdrawal
  split
  · exact selection_kind _ 6
  · simp

theorem produces_some {s : State} {p : PortIx} {st : StreamIx} {r : Stream} (hr : s.streams[st] = some r) :
    s.produces p st = (r.isLive && r.producer == some p) := by
  simp only [State.produces, hr]

/-- What a state in which a loss is taken shares with the state before the event. -/
theorem LossFrom.tables {p : PortIx} {s w : State} (h : LossFrom p s w) : w.streams = s.streams ∧ w.taps = s.taps ∧
    w.origins = s.origins ∧ w.drainSets = s.drainSets ∧ w.service = s.service ∧ w.restarting = s.restarting ∧
    w.produces p = s.produces p ∧ w.orphanBeat = s.orphanBeat ∧ w.orphanPosts = s.orphanPosts ∧
    w.tb.selected = s.tb.selected ∧ w.tb.candidates = s.tb.candidates ∧
    ∀ q : PortIx, q ≠ p → w.ports[q] = s.ports[q] := by
  obtain ⟨e, x, d, tb, rfl, -, -, htb⟩ := h
  have hbeat : tb.beat = s.tb.beat ∧ tb.selected = s.tb.selected ∧ tb.candidates = s.tb.candidates := by
    rcases htb with rfl | ⟨-, rfl⟩ <;> exact ⟨rfl, rfl, rfl⟩
  refine ⟨rfl, rfl, rfl, rfl, rfl, rfl, rfl, ?_, rfl, hbeat.2.1, hbeat.2.2, fun q hq => ?_⟩
  · simp only [State.orphanBeat, hbeat.1]
  · simp only [vget_set, hq, if_false]

section
variable {p : PortIx} {cause : PortCause} {s w v : State} (h : LossFrom p s w) (ha : LossAround p w v)
include h ha

/-- What a loss has posted when its event ends. -/
theorem loss_posts : (v.withPortOut p (w.byPresence p) cause).posts = w.lossPosts p ++ postsTo .service (w.withdrawal p).2 ++
    postsTo .service [(.portEvent, portEventFields p (s.ports[p]).state (w.byPresence p) cause (s.ports[p]).frame)] := by
  obtain ⟨streams, taps, store, lines, triggers, rfl, -⟩ := ha
  simp only [State.withPortOut, h.posts, List.nil_append, h.state]

/-- The streams that a loss leaves, before its event ends. -/
theorem loss_streams (st : StreamIx) : ∃ fifo left, (v.withPortOut p (w.byPresence p) cause).streams[st] =
    (s.streams[st]).map (fun r => Stream.forgets (.port p)
      { (if (s.ports[p]).state = .active ∧ s.produces p st = true then r.orphan s.orphanBeat else r) with
        fifo := fifo, taps := left }) ∧
    ((s.ports[p]).state ≠ .active ∨ (∀ (t : TapIx) x, s.taps[t] = some x → x.consumer = p → x.pending = []) →
      ∀ r, s.streams[st] = some r → fifo = r.fifo) := by
  obtain ⟨hws, hwt, -, -, -, -, hprod, hbeat, -⟩ := h.tables
  have hstate := h.state.1
  obtain ⟨streams, taps, store, lines, triggers, rfl, hidle, hactive⟩ := ha
  rw [hstate, hws] at hidle
  simp only [hstate, hwt, hws, orphaned_stream, hprod, hbeat] at hactive
  have hmap : ∀ o : Option Stream, (streams[st] = o) → ∀ w' : State, w'.streams = streams.map (Option.map (Stream.forgets (.port p))) →
      w'.streams[st] = o.map (Stream.forgets (.port p)) := fun o ho w' hw' => by rw [hw', vget_map, ho]
  by_cases hact : (s.ports[p]).state = .active
  · obtain ⟨-, -, hs⟩ := hactive hact
    obtain ⟨fifo, left, hst, hf⟩ := hs st
    refine ⟨fifo, left, (hmap _ hst _ rfl).trans ?_, fun hn => hf (hn.resolve_left (not_not.mpr hact))⟩
    by_cases hp : s.produces p st = true
    · simp only [hp, hact, and_self, if_true, Option.map_map]; rfl
    · simp only [hp, hact, Option.map_map]; rfl
  · have hst := hidle hact
    cases hr : s.streams[st] with
    | none => exact ⟨[], [], hmap none (by rw [hst, hr]) _ rfl, fun _ r hr => by cases hr⟩
    | some r =>
      refine ⟨r.fifo, r.taps, (hmap (some r) (by rw [hst, hr]) _ rfl).trans ?_, fun _ r' hr' => by cases hr'; rfl⟩
      simp only [hact, false_and, if_false, Option.map_some]

/-- What the end of the event leaves of a stream of a lost port, or of another. -/
theorem loss_core (st : StreamIx) {t : State} (ht : t = finish s (v.withPortOut p (w.byPresence p) cause)) :
    t.coreOf st = (s.streams[st]).map (fun r => (if (s.ports[p]).state = .active ∧ s.produces p st = true
      then r.orphan s.orphanBeat else r).core) ∨ t.streams[st] = none ∧ s.produces p st = false := by
  obtain ⟨fifo, left, hst, -⟩ := loss_streams (cause := cause) h ha st
  have hcore : ∀ r : Stream, (r.forgets (.port p)).core = r.core := fun r => by unfold Stream.forgets; split <;> rfl
  have hu : (v.withPortOut p (w.byPresence p) cause).coreOf st = (s.streams[st]).map (fun r =>
      (if (s.ports[p]).state = .active ∧ s.produces p st = true then r.orphan s.orphanBeat else r).core) := by
    rw [State.coreOf, hst, Option.map_map]
    exact Option.map_congr fun r _ => hcore _
  rcases (coreOf_keeps st _).finish (s0 := s) (s := v.withPortOut p (w.byPresence p) cause) (.inl hu) with hc | ⟨hn, hd⟩
  · exact .inl (ht ▸ hc)
  · refine .inr ⟨ht ▸ Option.map_eq_none_iff.mp hn, ?_⟩
    cases hr : s.streams[st] with
    | none => simp only [State.produces, hr]
    | some r =>
      rw [hr, Option.map_some, Option.map_some, Option.some.injEq] at hd
      simp only [State.produces, hr]
      split at hd
      · cases hd
      · simp only [Stream.isLive, show r.state = .draining from hd]; rfl

/-- Where it was ACTIVE, the port stands in no table. -/
theorem loss_standsNowhere (hact : (s.ports[p]).state = .active) :
    (finish s (v.withPortOut p (w.byPresence p) cause)).StandsNowhere p := by
  have htab := tables_finish s (v.withPortOut p (w.byPresence p) cause)
  have hcand : (w.withdrawal p).1.candidates[p] = none := by
    have : w.withdrawal p = w.withdrawn p := by simp only [State.withdrawal, State.withdrawn, h.state, hact, true_and]
    rw [this, withdrawn_candidates, vget_set, if_pos rfl]
  obtain ⟨streams, taps, store, lines, triggers, hv, -, hactive⟩ := id ha
  obtain ⟨htaps, hlines, -⟩ := hactive (h.state.1.trans hact)
  refine ⟨(untapped_keeps p).finish ?_, fun st => ?_, ?_, ?_⟩
  · rw [hv]; exact htaps
  · rcases loss_core (cause := cause) h ha st rfl with hc | ⟨hn, -⟩
    · cases hr : s.streams[st] with
      | none =>
        rw [hr, Option.map_none] at hc
        simp only [State.produces, Option.map_eq_none_iff.mp hc]
      | some r =>
        rw [hr, Option.map_some] at hc
        obtain ⟨r', hr', hcore⟩ := Option.map_eq_some_iff.mp hc
        have hlive : (r'.isLive && r'.producer == some p) = (r'.core.isLive && r'.core.producer == some p) := rfl
        rw [produces_some hr', hlive, hcore]
        by_cases hp : s.produces p st = true
        · rw [if_pos ⟨hact, hp⟩]; rfl
        · rw [if_neg fun e => hp e.2]
          rwa [produces_some hr, Bool.not_eq_true] at hp
    · simp only [State.produces, hn]
  · rw [htab.tb, hv]; exact hcand
  · rw [htab.lines, hv]; exact hlines

/-- Each of its streams waits as an orphan. -/
theorem loss_orphans (hact : (s.ports[p]).state = .active) {st : StreamIx} {r : Stream} (hr : s.streams[st] = some r)
    (hp : s.produces p st = true) : Orphaned s (finish s (v.withPortOut p (w.byPresence p) cause)) st r := by
  rcases loss_core (cause := cause) h ha st rfl with hc | ⟨-, hn⟩
  · rw [hr, Option.map_some, if_pos ⟨hact, hp⟩] at hc
    obtain ⟨r', hr', hcore⟩ := Option.map_eq_some_iff.mp hc
    have hf : ∀ {β : Type} (f : Stream → β), (∀ x, f x = f x.core) → f r' = f (r.orphan s.orphanBeat) := fun f hf => by
      rw [hf r', hcore, ← hf]
    exact ⟨r', hr', hf _ fun _ => rfl, hf _ fun _ => rfl, hf _ fun _ => rfl, hf _ fun _ => rfl, hf _ fun _ => rfl,
      hf _ fun _ => rfl, hf _ fun _ => rfl⟩
  · rw [hp] at hn; cases hn

end

end Sys2Proof.Machine
end

section
namespace Sys2Proof.Machine

theorem leaves_state (x : Port) (st : PortState) (cycle : Nat) : (x.leaves st cycle).state = st := by
  unfold Port.leaves; split <;> rfl

theorem leaves_presence (x : Port) (st : PortState) (cycle : Nat) : (x.leaves st cycle).presence = x.presence := by
  unfold Port.leaves; split <;> rfl

/-- Notices of two kinds, posted in the other order than that of R158. -/
theorem ranked_swap {a b : Notices} {k k' : NoticeKind} (hk : k'.rank < k.rank) (ha : ∀ x ∈ a, x.1 = k)
    (hb : ∀ x ∈ b, x.1 = k') : ranked (a ++ b) = b ++ a := by
  refine ranked_eq (fun i => ?_) ?_
  · rw [List.filter_append, List.filter_append, filter_kind ha, filter_kind hb]
    by_cases h : k.rank = i
    · rw [if_neg (show k'.rank ≠ i by omega), List.append_nil, List.nil_append]
    · rw [if_neg h, List.append_nil, List.nil_append]
  · refine List.pairwise_append.mpr ⟨?_, ?_, fun x hx y hy => by rw [hb x hx, ha y hy]; omega⟩
    · exact List.pairwise_of_forall_mem_list fun x hx y hy => by rw [hb x hx, hb y hy]
    · exact List.pairwise_of_forall_mem_list fun x hx y hy => by rw [ha x hx, ha y hy]

/-- A hub restart does not begin with the end of an event. -/
theorem restarting_keeps (b : Bool) : EndKeeps (fun s => s.restarting = b) where
  removeTap t s hs := (tables_removeTap t s).restarting.trans hs
  modOrigin o f s hs := (tables_modOrigin o f s).restarting.trans hs
  posts _ _ hs := hs
  freeReads _ _ hs := hs
  ended _ _ hs := hs
  freed _ _ _ _ _ hs := hs
  drained _ _ _ hs := hs
  eased _ _ _ hs := hs

theorem lossPosts_notices (w : State) (p : PortIx) : (∀ y ∈ w.lossPosts p, y.dest ≠ .service) ∧ ∀ o, OnlyNotices o (w.lossPosts p) := by
  have hone : ∀ st, (∀ y ∈ w.orphanPosts st, y.dest ≠ .service) ∧ ∀ o, OnlyNotices o (w.orphanPosts st) := fun st => by
    unfold State.orphanPosts
    split
    · exact ⟨fun _ hy => (List.not_mem_nil hy).elim, fun _ _ hy => (List.not_mem_nil hy).elim⟩
    · exact ⟨consumerPosts_dest, fun o => onlyNotices_consumerPosts o w _ _⟩
  unfold State.lossPosts
  split
  · exact ⟨fun y hy => by obtain ⟨st, -, hy⟩ := List.mem_flatMap.mp hy; exact (hone st).1 y hy,
      fun o => onlyNotices_flatMap fun st _ => (hone st).2 o⟩
  · exact ⟨fun _ hy => (List.not_mem_nil hy).elim, fun _ _ hy => (List.not_mem_nil hy).elim⟩

section
variable {p : PortIx} {cause : PortCause} {s w v : State} (h : LossFrom p s w) (ha : LossAround p w v)
include h ha

/-- Where the lost port held no block, no drain ends with the loss and no ease is judged. -/
theorem loss_quiet (hn : (s.ports[p]).state ≠ .active ∨
      ∀ (t : TapIx) x, s.taps[t] = some x → x.consumer = p → x.pending = []) :
    settleDrains s (v.withPortOut p (w.byPresence p) cause) = v.withPortOut p (w.byPresence p) cause ∧
      judgeAllEase s (v.withPortOut p (w.byPresence p) cause) = v.withPortOut p (w.byPresence p) cause := by
  choose fifo left hst hf using loss_streams (cause := cause) h ha
  refine settled_quiet _ hst fun st r hr => ?_
  have hkeep : ∀ y : Stream, (y.forgets (.port p)).fifo = y.fifo ∧ (y.forgets (.port p)).state = y.state := fun y => by
    unfold Stream.forgets; split <;> exact ⟨rfl, rfl⟩
  refine ⟨(hkeep _).1.trans (hf st hn r hr), fun hd => ?_⟩
  replace hd := (hkeep _).2.symm.trans hd
  dsimp only at hd
  split at hd
  · cases hd
  · exact hd

/-- S is told of the port and of the timebase, behind the DONE of its close order. -/
theorem loss_told (hr : s.restarting = false) :
    LossTold p cause s (finish s (v.withPortOut p (w.byPresence p) cause)) := by
  have htab := tables_finish s (v.withPortOut p (w.byPresence p) cause)
  obtain ⟨-, -, -, -, hserv, hres, -⟩ := h.tables
  let l : Notices := (w.withdrawal p).2 ++
    [(.portEvent, portEventFields p (s.ports[p]).state (w.byPresence p) cause (s.ports[p]).frame)]
  have hposts := loss_posts (cause := cause) h ha
  have hst : ((v.withPortOut p (w.byPresence p) cause).ports[p]).state = w.byPresence p := by
    simp only [State.withPortOut, vget_set, if_true, leaves_state]
  have htold : ServiceTold s.service.origin l (v.withPortOut p (w.byPresence p) cause) := by
    obtain ⟨hdest, honly⟩ := lossPosts_notices w p
    refine .inl ⟨?_, ?_, ?_⟩
    · obtain ⟨_, _, _, _, _, rfl, -⟩ := ha; exact congrArg Service.origin hserv
    · rw [hposts]
      exact onlyNotices_append (onlyNotices_append (honly _) (onlyNotices_postsTo _ _ _)) (onlyNotices_postsTo _ _ _)
    · rw [hposts, noticesTo_append, noticesTo_append, (notTo_service hdest).2, noticesTo_postsTo, noticesTo_postsTo]
      rfl
  have hsettled : ServiceTold s.service.origin l (settleDrains s (v.withPortOut p (w.byPresence p) cause)) := by
    by_cases hact : (s.ports[p]).state = .active
    · have htorn : s.tornDown (v.withPortOut p (w.byPresence p) cause) = true := by
        refine List.any_eq_true.mpr ⟨p, mem_allPorts p, ?_⟩
        rw [hst, hact, State.byPresence]
        split <;> rfl
      exact DrainKeeps.settleDrains (by rw [htorn]; exact serviceTold_drains _ _) htold
    · rw [(loss_quiet (cause := cause) h ha (.inl hact)).1]; exact htold
  have hend := serviceTold_postRoles (s0 := s) (serviceTold_judgeAllEase (s0 := s) hsettled)
  have hranked : ranked l = (.portEvent, portEventFields p (s.ports[p]).state (w.byPresence p) cause (s.ports[p]).frame) ::
      (w.withdrawal p).2 :=
    ranked_swap (k := .timebaseEvent) (k' := .portEvent) (by decide) (withdrawal_kind w p) (by simp)
  have hstate : ((finish s (v.withPortOut p (w.byPresence p) cause)).ports[p]).state = w.byPresence p := by
    rw [htab.ports]; exact hst
  have hclock : (finish s (v.withPortOut p (w.byPresence p) cause)).clock = w.clock := by
    rw [htab.clock]; obtain ⟨_, _, _, _, _, rfl, -⟩ := ha; rfl
  unfold LossTold
  rw [hstate, hclock, ← h.withdrawal.1, ← hranked]
  have hnr : (postRoles s (judgeAllEase s (settleDrains s (v.withPortOut p (w.byPresence p) cause)))).restarting = false := by
    refine (restarting_keeps false).postRoles ((restarting_keeps false).judgeAllEase
      (((restarting_keeps false).drains _).settleDrains ?_))
    obtain ⟨_, _, _, _, _, rfl, -⟩ := ha
    exact hres.trans hr
  have hfin : (finish s (v.withPortOut p (w.byPresence p) cause)).service =
      (flush (postRoles s (judgeAllEase s (settleDrains s (v.withPortOut p (w.byPresence p) cause))))).service :=
    queueFarewells_service _ _
  rw [hfin]
  rcases hend.flush hnr with hq | hq
  · exact ⟨_, .inl rfl, hq⟩
  · exact ⟨_, .inr rfl, hq⟩

end

end Sys2Proof.Machine
end

section
namespace Sys2Proof.Machine

/-! ### Roles (R70) -/

theorem postRole_spec (p : PortIx) (n : Nat) (s : State) : ∃ cls freeReads, postRole p n s = { s with
    posts := s.posts ++ postsTo (.port p) [(.referenceRole, be 1 n ++ be 1 s.tb.state.code ++ be 1 cls)]
    freeReads := freeReads } ∧ ∀ y, s.tb.candidates[p] = some y → cls = y.cls := by
  unfold postRole
  cases hc : s.tb.candidates[p] with
  | none => exact ⟨_, _, rfl, fun y hy => by cases hy⟩
  | some y => exact ⟨y.cls, s.freeReads, rfl, fun y' hy' => by cases hy'; rfl⟩

/-- What a source gets told of a role, if it is a port. -/
theorem roleTo_spec (source : Option Source) (n : Nat) (s : State) : ∃ posts freeReads, roleTo source n s = { s with
    posts := s.posts ++ posts, freeReads := freeReads } ∧ (∀ o, OnlyNotices o posts) ∧
    ∀ c : PortIx, ∃ cls, (∀ y, s.tb.candidates[c] = some y → cls = y.cls) ∧ noticesTo (.port c) posts =
      if source = some (.port c) then [(.referenceRole, be 1 n ++ be 1 s.tb.state.code ++ be 1 cls)] else [] := by
  rcases source with _ | _ | p
  · exact ⟨[], s.freeReads, by rw [List.append_nil]; rfl, fun _ _ hx => (List.not_mem_nil hx).elim, fun c =>
      ⟨((s.tb.candidates[c]).map (·.cls)).getD 0, fun y hy => by rw [hy]; rfl, by simp [noticesTo]⟩⟩
  · exact ⟨[], s.freeReads, by rw [List.append_nil]; rfl, fun _ _ hx => (List.not_mem_nil hx).elim, fun c =>
      ⟨((s.tb.candidates[c]).map (·.cls)).getD 0, fun y hy => by rw [hy]; rfl, by simp [noticesTo]⟩⟩
  · obtain ⟨cls, freeReads, he, hcls⟩ := postRole_spec p n s
    refine ⟨_, freeReads, he, fun o => onlyNotices_postsTo o _ _, fun c => ?_⟩
    by_cases hc : p = c
    · subst hc
      exact ⟨cls, hcls, by rw [noticesTo_postsTo, if_pos rfl, if_pos rfl]⟩
    · exact ⟨((s.tb.candidates[c]).map (·.cls)).getD 0, fun y hy => by rw [hy]; rfl, by
        rw [noticesTo_postsTo, if_neg (by simpa using hc), if_neg (by simpa using hc)]⟩

/-- What the roles of an event tell a port that it does not take the role from. -/
theorem postRoles_spec (s0 s : State) : ∃ posts freeReads, postRoles s0 s = { s with
    posts := s.posts ++ posts, freeReads := freeReads } ∧ (∀ o, OnlyNotices o posts) ∧
    ∀ c : PortIx, (s0.tb.selected = some (.port c) → s.tb.selected = s0.tb.selected) →
      ∃ cls, (∀ y, s.tb.candidates[c] = some y → cls = y.cls) ∧ noticesTo (.port c) posts =
        if s.tb.selected = some (.port c) ∧ s.tb.selected ≠ s0.tb.selected
        then [(.referenceRole, be 1 1 ++ be 1 s.tb.state.code ++ be 1 cls)] else [] := by
  rw [postRoles_eq]
  by_cases hsel : s0.tb.selected = s.tb.selected
  · rw [if_pos hsel]
    exact ⟨[], s.freeReads, by rw [List.append_nil], fun _ _ hx => (List.not_mem_nil hx).elim, fun c _ =>
      ⟨((s.tb.candidates[c]).map (·.cls)).getD 0, fun y hy => by rw [hy]; rfl, by simp [noticesTo, hsel]⟩⟩
  · rw [if_neg hsel]
    obtain ⟨gained, f1, he1, ho1, hc1⟩ := roleTo_spec s.tb.selected 1 s
    obtain ⟨lost, f2, he2, ho2, hc2⟩ := roleTo_spec s0.tb.selected 2 (roleTo s.tb.selected 1 s)
    refine ⟨gained ++ lost, f2, by rw [he2, he1, List.append_assoc], fun o => onlyNotices_append (ho1 o) (ho2 o), fun c hkeep => ?_⟩
    obtain ⟨cls, hcls, hn1⟩ := hc1 c
    obtain ⟨_, -, hn2⟩ := hc2 c
    have hlost : s0.tb.selected ≠ some (.port c) := fun e => hsel (hkeep e).symm
    refine ⟨cls, hcls, ?_⟩
    rw [noticesTo_append, hn1, hn2, if_neg hlost, List.append_nil]
    exact if_congr ⟨fun e => ⟨e, Ne.symm hsel⟩, And.left⟩ rfl rfl

/-- What the orphaning of a stream whose taps' records agree with its list tells a port. -/
theorem noticesTo_orphanPosts {s : State} (h : s.TapsAgree) {st : StreamIx} (c : PortIx) :
    noticesTo (.port c) (s.orphanPosts st) = s.tapNotices .streamOrphaned st (((s.streams[st]).map (·.taps)).getD []) c := by
  unfold State.orphanPosts
  cases hr : s.streams[st] with
  | none => rfl
  | some r =>
    have hstream : ∀ v ∈ r.taps, ∀ x, s.taps[v] = some x → x.stream = st := fun v hv x hx => by
      obtain ⟨y, hy, hys⟩ := ((h st r hr).2 v).mp hv
      rw [hx] at hy; cases hy; exact hys
    simp only [consumerPosts_eq hstream, noticesTo_tapPosts, Option.map_some, Option.getD_some]

/-- A reference that a loss selects is a candidate of before, and the candidacies of other ports stand. -/
theorem loss_selects {p c : PortIx} {s w : State} (h : LossFrom p s w) (hc : c ≠ p) : (w.withdrawal p).1.candidates[c] = s.tb.candidates[c] ∧
    ((w.withdrawal p).1.selected = some (.port c) → (w.withdrawal p).1.selected ≠ s.tb.selected →
      ∃ y, s.tb.candidates[c] = some y) := by
  obtain ⟨-, -, -, -, -, -, -, -, -, hsel, hcand, -⟩ := h.tables
  unfold State.withdrawal
  split
  · obtain ⟨hcands, hnew⟩ := selection_selected
      { w with tb := { w.tb with candidates := w.tb.candidates.set p none } } 6
    have hset : (w.tb.candidates.set p none)[c] = s.tb.candidates[c] := by rw [vget_set, if_neg hc, hcand]
    refine ⟨(congrArg (fun l : Vector (Option Candidacy) 12 => l[c]) hcands).trans hset, fun hs hne => ?_⟩
    rcases hnew with hnone | hold | ⟨d, y, hy, hd⟩
    · rw [hnone] at hs; cases hs
    · exact absurd (hold.trans hsel) hne
    · rw [hs, Option.some.injEq] at hd
      subst hd
      exact ⟨y, hset ▸ hy⟩
  · exact ⟨congrArg (fun l : Vector (Option Candidacy) 12 => l[c]) hcand, fun _ hne => absurd hsel hne⟩

section
variable {p : PortIx} {cause : PortCause} {s w v : State} (h : LossFrom p s w) (ha : LossAround p w v)
include h ha

/-- The consumers of an ACTIVE port's streams are told. -/
theorem loss_orphansTold (hact : (s.ports[p]).state = .active) (hrest : s.atRest = false) (hr : s.restarting = false) :
    OrphansTold p s (finish s (v.withPortOut p (w.byPresence p) cause)) := by
  intro hpend hlaw c hc hkeep gained
  obtain ⟨hws, hwt, hwo, hwd, -, hwr, hprod, -, horph, -, -, hwp⟩ := h.tables
  have htab := tables_finish s (v.withPortOut p (w.byPresence p) cause)
  obtain ⟨hsettle, hease⟩ := loss_quiet (cause := cause) h ha (.inr hpend)
  obtain ⟨roles, freeReads, hroles, honly, hgained⟩ := postRoles_spec s (v.withPortOut p (w.byPresence p) cause)
  have hposts := loss_posts (cause := cause) h ha
  obtain ⟨hcandc, hsel⟩ := loss_selects h hc
  have htb : (v.withPortOut p (w.byPresence p) cause).tb = (w.withdrawal p).1 := by
    obtain ⟨_, _, _, _, _, rfl, -⟩ := ha; rfl
  have horigin : ∀ q : PortIx, q ≠ p → (v.withPortOut p (w.byPresence p) cause).origins[q] = s.origins[q] ∧
      (v.withPortOut p (w.byPresence p) cause).drainSets[q] = s.drainSets[q] ∧
      (v.withPortOut p (w.byPresence p) cause).ports[q] = s.ports[q] := fun q hq => by
    obtain ⟨_, _, _, _, _, rfl, -⟩ := ha
    simp only [State.withPortOut, vget_set, hq, if_false, hwo, hwd, hwp q hq, and_self]
  have hfin : finish s (v.withPortOut p (w.byPresence p) cause) =
      flush (postRoles s (v.withPortOut p (w.byPresence p) cause)) := by
    unfold finish
    rw [hsettle, hease]
    refine queueFarewells_quiet fun q hq => ?_
    have hpark : (v.withPortOut p (w.byPresence p) cause).mayPark q = true := by
      have := mayPark_flush hq
      rw [hroles] at this
      exact this
    by_cases hqp : q = p
    · subst hqp
      have hst : ((v.withPortOut q (w.byPresence q) cause).ports[q]).state ≠ .leaving := by
        simp only [State.withPortOut, vget_set, if_true, leaves_state, State.byPresence]
        split <;> simp
      simp [State.mayPark, hst, -Fin.getElem_fin] at hpark
    · obtain ⟨ho, hd, hp⟩ := horigin q hqp
      simpa only [State.mayPark, ho, hd, hp] using hpark
  have hflush := flush_origin (s := postRoles s (v.withPortOut p (w.byPresence p) cause)) (o := .port c)
  have hnotices : noticesTo (.port c) (v.withPortOut p (w.byPresence p) cause).posts =
      (allStreams.filter (s.produces p)).flatMap (fun st =>
        s.tapNotices .streamOrphaned st (((s.streams[st]).map (·.taps)).getD []) c) := by
    rw [hposts, noticesTo_append, noticesTo_append, noticesTo_postsTo, noticesTo_postsTo, if_neg (by simp), if_neg (by simp),
      List.append_nil, List.append_nil, State.lossPosts, if_pos (h.state.1.trans hact), noticesTo_flatMap, hprod, horph]
    exact List.flatMap_congr fun st _ => noticesTo_orphanPosts (TapListLaw.agree (hlaw hrest).1) c
  obtain ⟨cls, hcls, hrole⟩ := hgained c fun e => (htab.tb ▸ hkeep e : _ = _)
  have hranked : ranked (noticesTo (.port c) (postRoles s (v.withPortOut p (w.byPresence p) cause)).posts) =
      noticesTo (.port c) roles ++ (allStreams.filter (s.produces p)).flatMap (fun st =>
        s.tapNotices .streamOrphaned st (((s.streams[st]).map (·.taps)).getD []) c) := by
    rw [hroles, noticesTo_append, hnotices]
    refine ranked_swap (k := .streamOrphaned) (k' := .referenceRole) (by decide)
      (forall_mem_flatMap fun st => tapNotices_kind) fun x hx => ?_
    rw [hrole] at hx
    split at hx
    · rw [List.mem_singleton.mp hx]
    · cases hx
  have hclass : noticesTo (.port c) roles = gained := by
    rw [hrole]
    simp only [gained, htab.tb]
    split
    · rename_i hg
      rw [htb] at hg
      obtain ⟨y, hy⟩ := hsel hg.1 hg.2
      rw [hcls y (by rw [htb]; exact hcandc.trans hy), hy]
      rfl
    · rfl
  have honlyAll : OnlyNotices (.port c) (postRoles s (v.withPortOut p (w.byPresence p) cause)).posts := by
    rw [hroles, hposts]
    exact onlyNotices_append (onlyNotices_append (onlyNotices_append ((lossPosts_notices w p).2 _) (onlyNotices_postsTo _ _ _))
      (onlyNotices_postsTo _ _ _)) (honly _)
  have hnr : (postRoles s (v.withPortOut p (w.byPresence p) cause)).restarting = false := by
    rw [hroles]; obtain ⟨_, _, _, _, _, rfl, -⟩ := ha; exact hwr.trans hr
  have hbefore : (postRoles s (v.withPortOut p (w.byPresence p) cause)).origins[c] = s.origins[c] := by
    rw [hroles]; exact (horigin c hc).1
  have hend := hflush honlyAll
  rw [hranked, hclass, State.told, if_neg (by rw [hnr]; simp)] at hend
  rw [hfin]
  exact hend.trans (congrArg _ hbefore)

/-- The loss of a port. -/
theorem loss_lost (hrest : s.atRest = false) : Lost p cause s (finish s (v.withPortOut p (w.byPresence p) cause)) := by
  have htab := tables_finish s (v.withPortOut p (w.byPresence p) cause)
  have hport : (finish s (v.withPortOut p (w.byPresence p) cause)).ports[p] =
      (w.ports[p]).leaves (w.byPresence p) w.clock.cycle := by
    rw [htab.ports]
    obtain ⟨_, _, _, _, _, rfl, -⟩ := ha
    simp only [State.withPortOut, vget_set, if_true]
  have htb : (finish s (v.withPortOut p (w.byPresence p) cause)).tb = (w.withdrawal p).1 := by
    rw [htab.tb]; obtain ⟨_, _, _, _, _, rfl, -⟩ := ha; rfl
  refine ⟨?_, holdsNothing_finish ?_, ?_, loss_told h ha, fun hact => ⟨loss_standsNowhere h ha hact,
    fun st r hr hp => loss_orphans h ha hact hr hp, loss_orphansTold h ha hact hrest⟩⟩
  · rw [hport, leaves_presence, leaves_state]; rfl
  · unfold State.byPresence
    split
    · exact .inr (.inl rfl)
    · exact .inl rfl
  · unfold LossReselects
    rw [htb]
    exact h.withdrawal.2

end

/-- A loss, in an event that has changed nothing but time, the measures and the delay record of the port and the count of slots
of the reference: the port is lost, and what the loss sets of its record, of the egress and of the delays is this. -/
theorem takeLoss_lost {p : PortIx} {cause : PortCause} {s w : State} (hrest : s.atRest = false) (h : LossFrom p s w)
    (hf : (s.ports[p]).state.framerRuns = true) : Lost p cause s (finish s (takeLoss p cause w)) ∧
      (finish s (takeLoss p cause w)).ports = s.ports.set p ((w.ports[p]).leaves (w.byPresence p) s.clock.cycle) ∧
      (finish s (takeLoss p cause w)).delays = w.delays.set p (w.delays[p]).clear ∧
      (finish s (takeLoss p cause w)).egress = s.egress.set p { s.egress[p] with dueBeat := none } ∧
      sameRackTime s (finish s (takeLoss p cause w)) ∧ (finish s (takeLoss p cause w)).settings = s.settings ∧
      (finish s (takeLoss p cause w)).setup = s.setup ∧ (finish s (takeLoss p cause w)).pins = s.pins := by
  obtain ⟨v, ha, he⟩ := takeLoss_eq (cause := cause) (p := p) (w := w) (by rw [h.state.1]; exact hf)
  rw [he]
  refine ⟨loss_lost h ha hrest, ?_⟩
  have htab := tables_finish s (v.withPortOut p (w.byPresence p) cause)
  obtain ⟨_, _, _, _, _, rfl, -⟩ := ha
  obtain ⟨e, x, d, tb, rfl, -⟩ := h
  rw [htab.ports, htab.delays, htab.egress, htab.settings, htab.setup, htab.pins, sameRackTime, htab.clock]
  simp only [State.withPortOut, Vector.set_set, and_self]

end Sys2Proof.Machine
end

section
namespace Sys2Proof.Machine

/-! ### Silence (R8, R20, R22) -/

section
variable {p : PortIx} {s : State}

theorem exec_silence (hrest : s.atRest = false) : exec (.silence p) s = .next (finish s (takeSilence p (begin_ s))) :=
  event_running (f := takeSilence p) hrest

theorem leaves_counters (x : Port) (st : PortState) (cycle : Nat) : (x.leaves st cycle).counters = x.counters := by
  unfold Port.leaves; split <;> rfl

theorem lossFrom_begin (p : PortIx) (s : State) : LossFrom p s (begin_ s) :=
  ⟨s.clock.elapsed, s.ports[p], s.delays[p], s.tb, by rw [vset_self, vset_self]; rfl, rfl, rfl, .inl rfl⟩

/-- The event of a silence begins with the partial parcel discarded. -/
theorem lossFrom_silence (p : PortIx) (s : State) : LossFrom p s (modPort p (fun x => { x with framer := .empty }) (begin_ s)) :=
  (lossFrom_begin p s).modPort (fun _ => by rfl) fun _ => by rfl

theorem silence_lost (hrest : s.atRest = false) (hsil : 256 ≤ s.silenceOf p) (hf : (s.ports[p]).state.framerRuns = true) :
    Runs (exec (.silence p) s) fun t => Lost p .silence s t ∧ SameElsewhere p s t ∧ (t.ports[p]).framer = ⟨.outside, []⟩ := by
  have htake : takeSilence p (begin_ s) = takeLoss p .silence (modPort p (fun x => { x with framer := .empty }) (begin_ s)) := by
    have h1 : Config.silenceLimit ≤ (begin_ s).silenceOf p := hsil
    have h2 : ((begin_ s).ports[p]).state.framerRuns = true := hf
    simp only [takeSilence, h1, h2, if_true]
  refine ⟨_, exec_silence hrest, ?_⟩
  rw [htake]
  obtain ⟨hlost, hports, hdelays, hegress, hclock, hset, hsetup, hpins⟩ :=
    takeLoss_lost (cause := .silence) hrest (lossFrom_silence p s) hf
  have hother : ∀ {α : Type} (l : Vector α 12) (a : α) (q : PortIx), q ≠ p → (l.set p a)[q] = l[q] := fun l a q hq => by
    rw [vget_set, if_neg hq]
  refine ⟨hlost, ⟨?_, ?_, ?_, ?_, fun q hq => ⟨?_, ?_, ?_⟩, hclock, hset, hsetup, hpins⟩, ?_⟩
  · rw [hports, vget_set, if_pos rfl, leaves_counters]; simp only [modPort, vget_set, if_true]; rfl
  · rw [hports, vget_set, if_pos rfl, leaves_presence]; simp only [modPort, vget_set, if_true]; rfl
  · rw [hegress, vget_set, if_pos rfl]
  · rw [hdelays, vget_set, if_pos rfl]; rfl
  · rw [hports, hother _ _ q hq]
  · rw [hdelays, hother _ _ q hq]; rfl
  · rw [hegress, hother _ _ q hq]
  · rw [hports, vget_set, if_pos rfl, State.byPresence]
    split <;> rfl

end

/-- Settles O21: by the state of the port and the length of the silence. -/
theorem silence : Obligations.Silence := by
  intro p s hrest x
  refine ⟨fun h => ?_, fun hsil hl => ?_, silence_lost hrest⟩
  · have htake : takeSilence p (begin_ s) = begin_ s := by
      rcases h with h | ⟨hf, hl⟩
      · exact if_neg (show ¬ 256 ≤ s.silenceOf p by omega)
      · have h2 : ((begin_ s).ports[p]).state.framerRuns = false := hf
        have h3 : ((begin_ s).ports[p]).state ≠ .listening := hl
        simp only [takeSilence, h2, h3, Bool.false_eq_true, if_false, ite_self]
    rw [exec_silence hrest, htake]
    exact congrArg Host.Outcome.next (finish_untouched rfl rfl (fun _ => id) rfl rfl rfl)
  · have htake : takeSilence p (begin_ s) = modPort p (fun x => { x with
        fillRun := 0, silenceSince := s.clock.cycle
        counters := if 1 ≤ x.fillRun then { x.counters with listenRestarts := satAdd x.counters.listenRestarts 1 }
          else x.counters }) (begin_ s) := by
      have h1 : Config.silenceLimit ≤ (begin_ s).silenceOf p := hsil
      have h2 : ((begin_ s).ports[p]).state = .listening := hl
      simp only [takeSilence, h1, h2, if_true, resetFillRun_eq, modPort_modPort]
      rfl
    rw [exec_silence hrest, htake]
    exact congrArg Host.Outcome.next (finish_untouched rfl rfl (fun q hq => by rwa [modPort_state (by rfl)] at hq) rfl rfl rfl)

end Sys2Proof.Machine
end

section
namespace Sys2Proof.Machine

/-! ### Table 8 (R4, R5, R7) -/

section
variable {p : PortIx} {s : State} {symbol : Symbol} {fr : Framer} {check : Bool}

/-- The cells without an error move the framer. -/
theorem takeFramer_next (h : framerNext (s.ports[p]).framer symbol = some fr) :
    takeFramer p symbol s = modPort p (fun x => { x with framer := fr }) s := by
  have hkeep : (s.ports[p]).framer = fr → s = modPort p (fun x => { x with framer := fr }) s := fun e =>
    (modPort_id (f := fun x => { x with framer := fr }) (by rw [← e])).symm
  unfold takeFramer
  generalize hfr : (s.ports[p]).framer = now at h hkeep
  obtain ⟨mode, buffer⟩ := now
  cases mode with
  | outside =>
    cases symbol with
    | fill => cases h; exact hkeep rfl
    | lead => cases h; rfl
    | _ => cases h
  | inside =>
    cases symbol with
    | data b =>
      by_cases hb : buffer.length < 284
      · simp only [framerNext, hb, if_true, Option.some.injEq] at h
        subst h
        exact if_pos hb
      · simp only [framerNext, hb, if_false] at h
        cases h
    | _ => cases h
  | skip =>
    cases symbol with
    | fill | tail | lead => cases h; rfl
    | data b => cases h; exact hkeep rfl
    | _ => cases h

/-- A port whose framer has met an error (R4, R5). -/
def Port.fails (fr : Framer) (check : Bool) (x : Port) : Port := { x with
  framer := fr
  counters := if check then { x.counters with checkFailures := satAdd x.counters.checkFailures 1 } else x.counters }

/-- An error that ends a parcel is a check failure. -/
theorem checkFailure_moved (mode : FramerMode) : checkFailure p (setFramer p mode [] s) =
    raiseScore p (modPort p (Port.fails ⟨mode, []⟩ true) s) := by
  simp only [checkFailure, setFramer, countPort, modPort_modPort]
  rfl

theorem raiseScore_unmoved {fr : Framer} (h : (s.ports[p]).framer = fr) :
    raiseScore p s = raiseScore p (modPort p (Port.fails fr false) s) := by
  rw [modPort_id (f := Port.fails fr false) (by rw [← h]; rfl)]

/-- The cells with an error count it and move the framer, and the score rises. -/
theorem takeFramer_fails (h : framerFails (s.ports[p]).framer symbol = some (fr, check)) :
    takeFramer p symbol s = raiseScore p (modPort p (Port.fails fr check) s) := by
  unfold takeFramer
  generalize hfr : (s.ports[p]).framer = now at h
  obtain ⟨mode, buffer⟩ := now
  cases mode with
  | outside =>
    cases symbol with
    | data b => cases h; exact raiseScore_unmoved hfr
    | tail | illegal => cases h; exact raiseScore_unmoved hfr
    | _ => cases h
  | inside =>
    cases symbol with
    | fill | lead | illegal => cases h; exact checkFailure_moved _
    | data b =>
      by_cases hb : buffer.length < 284
      · simp only [framerFails, hb, if_true] at h
        cases h
      · simp only [framerFails, hb, if_false, Option.some.injEq, Prod.mk.injEq] at h
        obtain ⟨rfl, rfl⟩ := h
        exact (if_neg hb).trans (checkFailure_moved _)
    | tail =>
      by_cases hb : 5 ≤ buffer.length ∧ checkPasses buffer
      · simp only [framerFails, if_pos hb] at h
        cases h
      · simp only [framerFails, if_neg hb, Option.some.injEq, Prod.mk.injEq] at h
        obtain ⟨rfl, rfl⟩ := h
        refine Eq.trans (if_pos ?_) (checkFailure_moved _)
        simpa only [not_and_or, Nat.not_le, Bool.not_eq_true, Bool.not_eq_eq_eq_not, Bool.not_true] using hb
    | _ => cases h
  | skip =>
    cases symbol with
    | illegal => cases h; exact raiseScore_unmoved hfr
    | _ => cases h

theorem raiseScore_below (h : (s.ports[p]).score + 8 < 256) :
    raiseScore p s = modPort p (fun x => { x with score := x.score + 8 }) s := by
  have hmin : min Config.scoreLimit ((s.ports[p]).score + Config.scoreStep) = (s.ports[p]).score + 8 :=
    Nat.min_eq_right (Nat.le_of_lt h)
  simp only [raiseScore, hmin, if_neg (show (s.ports[p]).score + 8 ≠ Config.scoreLimit from Nat.ne_of_lt h)]
  exact modPort_congr rfl

theorem raiseScore_loses (h : 256 ≤ (s.ports[p]).score + 8) :
    raiseScore p s = takeLoss p .score (modPort p (fun x => { x with score := 256 }) s) := by
  have hmin : min Config.scoreLimit ((s.ports[p]).score + Config.scoreStep) = 256 := Nat.min_eq_left h
  simp only [raiseScore, hmin, if_pos (show 256 = Config.scoreLimit from rfl)]

end

/-! ### Symbols while the framer runs -/

section
variable {p : PortIx} {symbol : Symbol} {f : Fraction} {s : State} {fr : Framer} {check : Bool}

/-- A symbol that is no flow symbol is taken by the framer. -/
theorem exec_framed (hrest : s.atRest = false) (hf : (s.ports[p]).state.framerRuns = true) (hn : s.noComparison p = true)
    (hh : symbol ≠ .hold) (hg : symbol ≠ .go) :
    exec (.receivedSymbol p symbol f) s = .next (finish s (takeFramer p symbol (symbolTaken p f s))) := by
  rw [exec_receivedSymbol, event_running hrest, receiveSymbol_running hf hn]
  cases symbol with
  | hold => exact absurd rfl hh
  | go => exact absurd rfl hg
  | _ => rfl

theorem symbolTaken_framer : ((symbolTaken p f s).ports[p]).framer = (s.ports[p]).framer := by rw [symbolTaken_self]

theorem framerNext_flow (fr : Framer) : framerNext fr .hold = none ∧ framerNext fr .go = none := by
  obtain ⟨mode, buffer⟩ := fr
  cases mode <;> exact ⟨rfl, rfl⟩

theorem framerFails_flow (fr : Framer) : framerFails fr .hold = none ∧ framerFails fr .go = none := by
  obtain ⟨mode, buffer⟩ := fr
  cases mode <;> exact ⟨rfl, rfl⟩

theorem framerCollects : Claims.FramerCollects := by
  intro p symbol f s fr hrest hf hn h
  obtain ⟨hhold, hgo⟩ := framerNext_flow (s.ports[p]).framer
  rw [exec_framed hrest hf hn (by rintro rfl; rw [hhold] at h; cases h) (by rintro rfl; rw [hgo] at h; cases h), takeFramer_next (by rw [symbolTaken_framer]; exact h), finish_symbol fun _ => by rfl]

theorem lossFrom_symbolTaken (p : PortIx) (f : Fraction) (s : State) : LossFrom p s (symbolTaken p f s) := by
  unfold symbolTaken
  by_cases href : s.isReference (.port p) = true
  · rw [if_pos href]
    exact ⟨(opened f s).clock.elapsed, { s.ports[p] with silenceSince := s.clock.cycle, lastReceived := (opened f s).now },
      s.delays[p], { s.tb with edges := s.tb.edges + 1 }, by rw [vset_self]; rfl, rfl, rfl, .inr ⟨href, rfl⟩⟩
  · rw [if_neg href]
    exact ⟨(opened f s).clock.elapsed, { s.ports[p] with silenceSince := s.clock.cycle, lastReceived := (opened f s).now },
      s.delays[p], s.tb, by rw [vset_self]; rfl, rfl, rfl, .inl rfl⟩

/-- The event of a loss by the score begins with the error counted. -/
theorem lossFrom_failure (p : PortIx) (f : Fraction) (s : State) (fr : Framer) (check : Bool) :
    LossFrom p s (modPort p (fun x => { Port.fails fr check x with score := 256 }) (symbolTaken p f s)) :=
  (lossFrom_symbolTaken p f s).modPort (fun _ => by rfl) fun _ => by rfl

theorem framerFails_spec : Claims.FramerFails := by
  intro p symbol f s fr check hrest hf hn h
  obtain ⟨hhold, hgo⟩ := framerFails_flow (s.ports[p]).framer
  rw [exec_framed hrest hf hn (by rintro rfl; rw [hhold] at h; cases h) (by rintro rfl; rw [hgo] at h; cases h),
    takeFramer_fails (by rw [symbolTaken_framer]; exact h)]
  have hscore : ((modPort p (Port.fails fr check) (symbolTaken p f s)).ports[p]).score = (s.ports[p]).score := by
    simp only [modPort, vget_set, if_true, Port.fails, symbolTaken_self]
  refine ⟨fun hlow => ?_, fun hhigh => ?_⟩
  · rw [raiseScore_below (by rw [hscore]; exact hlow), modPort_modPort, finish_symbol fun _ => by rfl]
    rfl
  · rw [raiseScore_loses (by rw [hscore]; exact hhigh), modPort_modPort]
    refine ⟨_, rfl, ?_⟩
    obtain ⟨hlost, hports, -⟩ := takeLoss_lost (cause := .score) hrest (lossFrom_failure p f s fr check) hf
    refine ⟨hlost, ?_⟩
    rw [hports, vget_set, if_pos rfl, leaves_counters]
    simp only [modPort, vget_set, if_true, symbolTaken_self, Port.fails]
    cases check
    · exact (satAdd_zero _).symm
    · rfl

end

/-- Settles O17: by the cells of Table 8. -/
theorem framerTakesSymbols : Obligations.FramerTakesSymbols := ⟨framerCollects, framerFails_spec⟩

end Sys2Proof.Machine
end

section
namespace Sys2Proof.Machine

/-! ### Sheds at the hold limit (R29, R127) -/

/-- A tap that has shed what it held pending. -/
def Tap.shed (x : Tap) : Tap := { x with pending := [], owed := satAdd x.owed x.pending.length }

/-- A port that has counted sheds. -/
def Port.sheds (n : Nat) (x : Port) : Port :=
  { x with counters := { x.counters with shedEvents := satAdd x.counters.shedEvents n } }

/-- A shed touches the tap, the FIFO of its stream, the store and the counter of its port. -/
theorem shedTap_some {t : TapIx} {u : State} {x : Tap} {p : PortIx} (hx : u.taps[t] = some x)
    (hp : x.consumer = p) (cause : Nat) : ∃ store b,
    shedTap t cause u = { u with
      ports := u.ports.set p ((u.ports[p]).sheds 1)
      streams := u.streams.set x.stream (u.streams[x.stream].map fun r => { r with fifo := dropReferences x.pending r.fifo })
      store := store, taps := u.taps.set t (some x.shed), posts := u.posts ++ postsTo (.port p) [(.tapShed, b)] } := by
  subst hp
  obtain ⟨str, sto, h⟩ := releaseBlocks_keeps x.stream x.pending u
  have hs : str = u.streams.set x.stream (u.streams[x.stream].map fun r => { r with fifo := dropReferences x.pending r.fifo }) := by
    rw [← releaseBlocks_streams, h]
  refine ⟨sto, x.tag :: (be 1 x.stream.val ++ be 1 cause ++ be 2 x.pending.length ++ be 2 (satAdd x.owed x.pending.length).toNat), ?_⟩
  simp only [shedTap, hx, h, hs, modTap, Option.map_some, countPort, modPort, postNotice, post]
  rfl

/-- Some taps of a port have shed what they held: each once, with its events counted. -/
def ShedTaps (p : PortIx) (l : List TapIx) (u w : State) : Prop := ∃ streams store taps posts, w = { u with
    ports := u.ports.set p ((u.ports[p]).sheds (l.countP (fun v => (u.taps[v]).any (fun x => !x.pending.isEmpty))))
    streams := streams, store := store, taps := taps, posts := u.posts ++ posts } ∧
  (∀ v : TapIx, taps[v] = if v ∈ l then (u.taps[v]).map Tap.shed else u.taps[v]) ∧
  (∀ x ∈ posts, x.dest = .port p ∧ ∃ k b, x.item = .notice k b) ∧
  ((∀ v ∈ l, ∀ x, u.taps[v] = some x → x.pending = []) → posts = []) ∧
  ∀ st : StreamIx, ∃ fifo, streams[st] = (u.streams[st]).map (fun r => { r with fifo := fifo }) ∧
    ((∀ v ∈ l, ∀ x, u.taps[v] = some x → x.stream = st → x.pending = []) → ∀ r, u.streams[st] = some r → fifo = r.fifo)

/-- The step of the hold limit for one tap. -/
def shedHeldTap (t : TapIx) (s : State) : State :=
  match s.taps[t] with
  | some x => if x.pending.isEmpty then s else shedTap t 2 s
  | none => s

theorem shedHeldPort_eq (p : PortIx) (s : State) : shedHeldPort p s = each (s.tapsOf p) shedHeldTap s := rfl

theorem shed_of_nil {x : Tap} (h : x.pending = []) : x.shed = x := by
  have : x.shed = { x with pending := [], owed := satAdd x.owed 0 } := by rw [Tap.shed, h, List.length_nil]
  rw [this, satAdd_zero, ← h]

theorem sheds_sheds (m n : Nat) (x : Port) : (x.sheds m).sheds n = x.sheds (m + n) := by
  simp only [Port.sheds, satAdd_satAdd]

theorem each_shedHeldTap (p : PortIx) : ∀ {l : List TapIx} {u : State}, l.Nodup →
    (∀ v ∈ l, ∃ x, u.taps[v] = some x ∧ x.consumer = p) → ShedTaps p l u (each l shedHeldTap u) := by
  intro l
  induction l with
  | nil =>
    intro u _ _
    refine ⟨u.streams, u.store, u.taps, [], ?_, fun v => by simp, fun x hx => (List.not_mem_nil hx).elim, fun _ => rfl,
      fun st => ?_⟩
    · have : (u.ports[p]).sheds 0 = u.ports[p] := by simp only [Port.sheds, satAdd_zero]
      rw [List.countP_nil, this, vset_self, List.append_nil]; rfl
    · cases hr : u.streams[st] with
      | none => exact ⟨[], rfl, fun _ r hr => by cases hr⟩
      | some r => exact ⟨r.fifo, rfl, fun _ r' hr' => by cases hr'; rfl⟩
  | cons t l ih =>
    intro u hn hl
    obtain ⟨ht, hn⟩ := List.nodup_cons.mp hn
    obtain ⟨x, hx, hxp⟩ := hl t List.mem_cons_self
    have hshed : ∀ v ∈ l, v ≠ t := fun v hv e => ht (e ▸ hv)
    rw [each_cons]
    by_cases hp : x.pending = []
    · have hidle : shedHeldTap t u = u := by simp only [shedHeldTap, hx, hp, List.isEmpty_nil, if_true]
      rw [hidle]
      obtain ⟨streams, store, taps, posts, he, htaps, hposts, hnone, hstreams⟩ :=
        ih hn fun v hv => hl v (List.mem_cons_of_mem _ hv)
      refine ⟨streams, store, taps, posts, ?_, fun v => ?_, hposts, fun h => hnone fun v hv => h v (List.mem_cons_of_mem _ hv),
        fun st => ?_⟩
      · have : (u.taps[t]).any (fun x => !x.pending.isEmpty) = false := by simp [hx, hp, -Fin.getElem_fin]
        rw [he, List.countP_cons_of_neg (by rw [this]; simp)]
      · rw [htaps v]
        by_cases hv : v = t
        · subst hv
          rw [if_neg ht, if_pos List.mem_cons_self, hx, Option.map_some, shed_of_nil hp]
        · simp only [List.mem_cons, hv, false_or]
      · obtain ⟨fifo, hst, hf⟩ := hstreams st
        exact ⟨fifo, hst, fun h => hf fun v hv => h v (List.mem_cons_of_mem _ hv)⟩
    · obtain ⟨sto, b, hs⟩ := shedTap_some hx hxp 2
      have hstep : shedHeldTap t u = shedTap t 2 u := by
        simp only [shedHeldTap, hx, List.isEmpty_iff, hp, if_false]
      rw [hstep]
      have hkeep : ∀ v ∈ l, (shedTap t 2 u).taps[v] = u.taps[v] := fun v hv => by
        rw [hs, vget_set, if_neg (hshed v hv)]
      obtain ⟨streams, store, taps, posts, he, htaps, hposts, -, hstreams⟩ :=
        ih (u := shedTap t 2 u) hn fun v hv => by rw [hkeep v hv]; exact hl v (List.mem_cons_of_mem _ hv)
      refine ⟨streams, store, taps, postsTo (.port p) [(.tapShed, b)] ++ posts, ?_, fun v => ?_, fun y hy => ?_, fun h => ?_,
        fun st => ?_⟩
      · have hcount : l.countP (fun v => ((shedTap t 2 u).taps[v]).any (fun x => !x.pending.isEmpty)) =
            l.countP (fun v => (u.taps[v]).any (fun x => !x.pending.isEmpty)) :=
          List.countP_congr fun v hv => by rw [hkeep v hv]
        have hany : (u.taps[t]).any (fun x => !x.pending.isEmpty) = true := by simp [hx, hp, -Fin.getElem_fin]
        rw [he, hcount, List.countP_cons_of_pos (p := fun v : TapIx => (u.taps[v]).any (fun x => !x.pending.isEmpty)) hany, hs]
        simp only [vget_set, if_true, Vector.set_set, sheds_sheds, List.append_assoc, Nat.add_comm 1]
      · rw [htaps v]
        by_cases hv : v = t
        · subst hv
          rw [if_neg ht, if_pos List.mem_cons_self, hx, hs, vget_set, if_pos rfl, Option.map_some]
        · simp only [List.mem_cons, hv, false_or, hs, vget_set, if_false]
      · rcases List.mem_append.mp hy with hy | hy
        · rw [List.mem_singleton.mp hy]; exact ⟨rfl, _, _, rfl⟩
        · exact hposts y hy
      · exact absurd (h t List.mem_cons_self x hx) hp
      · obtain ⟨fifo, hst, hf⟩ := hstreams st
        refine ⟨fifo, ?_, fun h r hr => ?_⟩
        · rw [hst, hs, vget_set]
          split
          · subst_vars; rw [Option.map_map]; rfl
          · rfl
        · have hne : st ≠ x.stream := fun e => hp (h t List.mem_cons_self x hx e.symm)
          refine hf (fun v hv y hy hyst => ?_) r ?_
          · rw [hkeep v hv] at hy
            exact h v (List.mem_cons_of_mem _ hv) y hy hyst
          · rw [hs, vget_set, if_neg hne, hr]

end Sys2Proof.Machine
end

section
namespace Sys2Proof.Machine

/-! ### What a beat brings to a port (R14, R24, R25, R28, R29, R55) -/

/-- The taps of a port that hold blocks pending. -/
def State.heldTaps (u : State) (p : PortIx) : Nat :=
  (u.tapsOf p).countP (fun v => (u.taps[v]).any (fun x => !x.pending.isEmpty))

/-- The state that a failed attempt leaves a port in (R24, R25). -/
def Port.afterFailure (x : Port) : PortState := if 3 ≤ x.failures + 1 then .faulted else .listening

/-- The record of a port after a beat. -/
def State.portBeat (u : State) (p : PortIx) : Port :=
  let x := u.ports[p]
  if u.admits u.tb.beat p then x.admitted
  else if u.joinEnds u.tb.beat p then { x with failures := x.failures + 1 }.leaves x.afterFailure u.clock.cycle
  else if u.holdEnds p then { x with holdBeats := 0 }.sheds (u.heldTaps p)
  else if x.state = .active ∧ x.held then { x with holdBeats := x.holdBeats + 1 }
  else x

def State.delayBeat (u : State) (p : PortIx) : Delay :=
  if u.joinEnds u.tb.beat p then (u.delays[p]).clear
  else if (u.admits u.tb.beat p ∨ (u.ports[p]).state = .active) ∧ u.echoDue p then { u.delays[p] with due := some .steady }
  else u.delays[p]

def State.egressBeat (u : State) (p : PortIx) : Egress :=
  if u.joinEnds u.tb.beat p then { u.egress[p] with dueBeat := none }
  else if u.admits u.tb.beat p ∨ (u.ports[p]).state = .active ∨ (u.ports[p]).state = .leaving then
    { u.egress[p] with dueBeat := some ((u.egress[p]).dueBeat.getD u.tb.beat) }
  else u.egress[p]

/-- What a port that goes out of service gives up; any other keeps it. -/
def State.keepsUnless {α : Type} (u : State) (p : PortIx) (gone kept : α) : α :=
  if u.joinEnds u.tb.beat p then gone else kept

/-- A stream after what a beat brings to a port: it is taken up, or loses the close order of the port. -/
def State.portTakes (u : State) (p : PortIx) (r : Stream) : Stream :=
  if u.admits u.tb.beat p then u.takeUpOf p r
  else if u.joinEnds u.tb.beat p then r.forgets (.port p)
  else r

/-- A tap after what a beat brings to a port. -/
def State.tapBeat (u : State) (p : PortIx) (x : Tap) : Tap := if x.consumer = p ∧ u.holdEnds p = true then x.shed else x

/-- The beat sheds blocks of a stream, or of any, at the hold limit of one port. -/
def State.portSheds (u : State) (p : PortIx) (of : Tap → Prop) : Prop :=
  u.holdEnds p = true ∧ ∃ v x, u.taps[(v : TapIx)] = some x ∧ x.consumer = p ∧ of x ∧ x.pending ≠ []

/-- What a beat posts for a port: the admission or the failure is told, and the sheds. -/
def State.portTells (u : State) (p : PortIx) (posts : List Post) : Prop :=
  (u.admits u.tb.beat p = true → posts = u.admitPosts p) ∧
  (u.joinEnds u.tb.beat p = true → posts = postsTo .service [(.portEvent,
    portEventFields p .joining (u.ports[p]).afterFailure
      (if 3 ≤ (u.ports[p]).failures + 1 then .fault else .joinLimit) (u.ports[p]).frame)]) ∧
  (u.admits u.tb.beat p = false → u.joinEnds u.tb.beat p = false →
    (∀ x ∈ posts, x.dest = .port p ∧ ∃ k b, x.item = .notice k b) ∧ (¬ u.portSheds p (fun _ => True) → posts = []))

/-- All that a beat does to a port, and for it to streams, taps and store. -/
def BeatPort (p : PortIx) (u w : State) : Prop := ∃ streams store taps posts, w = { u with
    ports := u.ports.set p (u.portBeat p), delays := u.delays.set p (u.delayBeat p)
    egress := u.egress.set p (u.egressBeat p), origins := u.origins.set p (u.keepsUnless p none u.origins[p])
    triggers := u.triggers.set p (u.keepsUnless p .initial u.triggers[p])
    drainSets := u.drainSets.set p (u.keepsUnless p [] u.drainSets[p])
    streams := streams, store := store, taps := taps, posts := u.posts ++ posts } ∧
  (∀ v : TapIx, taps[v] = (u.taps[v]).map (u.tapBeat p)) ∧
  u.portTells p posts ∧
  ∀ st : StreamIx, ∃ fifo, streams[st] = (u.streams[st]).map (fun r => { u.portTakes p r with fifo := fifo }) ∧
    (¬ u.portSheds p (fun x => x.stream = st) → ∀ r, u.streams[st] = some r → fifo = r.fifo)

/-- Where the beat writes nothing but the records of the port, and tells nothing. -/
theorem BeatPort.quiet {p : PortIx} {u : State} {x : Port} {d : Delay} {e : Egress}
    (ha : u.admits u.tb.beat p = false) (hj : u.joinEnds u.tb.beat p = false) (hh : u.holdEnds p = false)
    (hx : x = u.portBeat p) (hd : d = u.delayBeat p) (he : e = u.egressBeat p) :
    BeatPort p u { u with ports := u.ports.set p x, delays := u.delays.set p d, egress := u.egress.set p e } := by
  refine ⟨u.streams, u.store, u.taps, [], ?_, fun v => ?_, ⟨fun h => ?_, fun h => ?_, fun _ _ => ⟨fun x hx =>
    (List.not_mem_nil hx).elim, fun _ => rfl⟩⟩, fun st => ?_⟩
  · rw [hx, hd, he]
    simp only [State.keepsUnless, hj, Bool.false_eq_true, if_false, vset_self, List.append_nil]
  · have : ∀ x, u.tapBeat p x = x := fun x => by simp only [State.tapBeat, hh, Bool.false_eq_true, and_false, if_false]
    cases u.taps[v] with
    | none => rfl
    | some x => rw [Option.map_some, this]
  · rw [ha] at h; cases h
  · rw [hj] at h; cases h
  · have : ∀ r, u.portTakes p r = r := fun r => by
      simp only [State.portTakes, ha, hj, Bool.false_eq_true, if_false]
    cases hr : u.streams[st] with
    | none => exact ⟨[], rfl, fun _ r hr => by cases hr⟩
    | some r => exact ⟨r.fifo, by rw [Option.map_some, this], fun _ r' hr' => by cases hr'; rfl⟩

theorem BeatPort.idle {p : PortIx} {u : State} (ha : u.admits u.tb.beat p = false) (hj : u.joinEnds u.tb.beat p = false)
    (h1 : (u.ports[p]).state ≠ .active) (h2 : (u.ports[p]).state ≠ .leaving) : BeatPort p u u := by
  have hh : u.holdEnds p = false := by simp [State.holdEnds, h1, -Fin.getElem_fin]
  have h := BeatPort.quiet (x := u.ports[p]) (d := u.delays[p]) (e := u.egress[p]) ha hj hh
    (by simp only [State.portBeat, ha, hj, hh, h1, false_and, Bool.false_eq_true, if_false])
    (by simp only [State.delayBeat, ha, hj, h1, or_self, false_and, Bool.false_eq_true, if_false])
    (by simp only [State.egressBeat, ha, hj, h1, h2, or_self, Bool.false_eq_true, if_false])
  simpa only [vset_self] using h

/-- An admission is the beat's doing on a port that holds its epoch. -/
theorem BeatPort.admission {p : PortIx} {u : State} (hst : (u.ports[p]).state = .admitted)
    (he : (u.ports[p]).epoch = some u.tb.beat) : BeatPort p u (u.afterAdmission p) := by
  have ha : u.admits u.tb.beat p = true := by simp [State.admits, hst, he, -Fin.getElem_fin]
  have hj : u.joinEnds u.tb.beat p = false := by simp [State.joinEnds, hst, -Fin.getElem_fin]
  have hh : u.holdEnds p = false := by simp [State.holdEnds, hst, -Fin.getElem_fin]
  refine ⟨u.takeUp p, u.store, u.taps, u.admitPosts p, ?_, fun v => ?_, ⟨fun _ => rfl, fun h => ?_, fun h => ?_⟩, fun st => ?_⟩
  · simp only [State.afterAdmission, State.portBeat, State.delayBeat, State.egressBeat, State.keepsUnless, ha, hj,
      Bool.false_eq_true, if_false, if_true, true_or, true_and, vset_self]
  · have : ∀ x, u.tapBeat p x = x := fun x => by simp only [State.tapBeat, hh, Bool.false_eq_true, and_false, if_false]
    cases u.taps[v] with
    | none => rfl
    | some x => rw [Option.map_some, this]
  · rw [hj] at h; cases h
  · rw [ha] at h; cases h
  · have : ∀ r, u.portTakes p r = u.takeUpOf p r := fun r => by simp only [State.portTakes, ha, if_true]
    rw [takeUp_stream]
    cases hr : u.streams[st] with
    | none => exact ⟨[], rfl, fun _ r hr => by cases hr⟩
    | some r =>
      refine ⟨r.fifo, ?_, fun _ r' hr' => by cases hr'; rfl⟩
      simp only [Option.map_some, this]
      unfold State.takeUpOf
      split <;> rfl

/-- A failed attempt is the beat's doing on a port at its join deadline. -/
theorem BeatPort.failure {p : PortIx} {u : State} (hst : (u.ports[p]).state = .joining)
    (hd : (u.ports[p]).joinDeadline = some u.tb.beat) : BeatPort p u (failAttempt p .joinLimit u) := by
  have ha : u.admits u.tb.beat p = false := by simp [State.admits, hst, -Fin.getElem_fin]
  have hj : u.joinEnds u.tb.beat p = true := by simp [State.joinEnds, hst, hd, -Fin.getElem_fin]
  have hh : u.holdEnds p = false := by simp [State.holdEnds, hst, -Fin.getElem_fin]
  have hfail : failAttempt p .joinLimit u = (modPort p (fun x => { x with failures := x.failures + 1 }) u).withPortOut p
      (u.ports[p]).afterFailure (if 3 ≤ (u.ports[p]).failures + 1 then .fault else .joinLimit) := by
    unfold failAttempt Port.afterFailure
    by_cases h3 : 3 ≤ (u.ports[p]).failures + 1
    · simp only [show Config.failureLimit ≤ (u.ports[p]).failures + 1 from h3, h3, if_true]
      exact moveTo_out (.inr (.inr rfl))
    · simp only [show ¬ Config.failureLimit ≤ (u.ports[p]).failures + 1 from h3, h3, if_false]
      exact moveTo_out (.inr (.inl rfl))
  rw [hfail]
  refine ⟨u.streams.map (Option.map (Stream.forgets (.port p))), u.store, u.taps, _, ?_, fun v => ?_,
    ⟨fun h => ?_, fun _ => rfl, fun _ h => ?_⟩, fun st => ?_⟩
  · simp only [State.withPortOut, modPort, State.portBeat, State.delayBeat, State.egressBeat, State.keepsUnless, ha, hj,
      Bool.false_eq_true, if_false, if_true, vget_set, Vector.set_set, hst]
  · have : ∀ x, u.tapBeat p x = x := fun x => by simp only [State.tapBeat, hh, Bool.false_eq_true, and_false, if_false]
    cases u.taps[v] with
    | none => rfl
    | some x => rw [Option.map_some, this]
  · rw [ha] at h; cases h
  · rw [hj] at h; cases h
  · have : ∀ r, u.portTakes p r = r.forgets (.port p) := fun r => by
      simp only [State.portTakes, ha, hj, Bool.false_eq_true, if_false, if_true]
    rw [vget_map]
    cases hr : u.streams[st] with
    | none => exact ⟨[], rfl, fun _ r hr => by cases hr⟩
    | some r =>
      refine ⟨r.fifo, ?_, fun _ r' hr' => by cases hr'; rfl⟩
      simp only [Option.map_some, this]
      unfold Stream.forgets
      split <;> rfl

section
variable {p : PortIx} {u : State}

/-- A state in which the beat has been marked due and the steady echo scheduled on a port. -/
def State.marked (u : State) (p : PortIx) : State :=
  { u with delays := u.delays.set p (u.delayBeat p), egress := u.egress.set p (u.egressBeat p) }

/-- That state where the hold timer of the port has counted the beat as well. -/
def State.counted (u : State) (p : PortIx) : State :=
  modPort p (fun x => { x with holdBeats := x.holdBeats + 1 }) (u.marked p)

/-- The beat is marked due and the steady echo scheduled on a port in service. -/
theorem schedule_mark (hst : (u.ports[p]).state = .active ∨ (u.ports[p]).state = .leaving) :
    scheduleEcho p (markBeat p u) = u.marked p := by
  have ha : u.admits u.tb.beat p = false := by rcases hst with h | h <;> simp [State.admits, h, -Fin.getElem_fin]
  have hj : u.joinEnds u.tb.beat p = false := by rcases hst with h | h <;> simp [State.joinEnds, h, -Fin.getElem_fin]
  have hmark : markBeat p u = { u with egress := u.egress.set p (u.egressBeat p) } := by
    simp only [markBeat, State.egressBeat, ha, hj, hst, Bool.false_eq_true, if_false, if_true, or_true, modEgress]
  rw [hmark]
  unfold scheduleEcho
  by_cases h : (u.ports[p]).state = .active ∧ u.echoDue p
  · rw [if_pos (by exact h), State.marked, State.delayBeat, if_neg (by rw [hj]; simp), if_pos ⟨.inr h.1, h.2⟩]
    rfl
  · rw [if_neg (by exact h), State.marked, State.delayBeat, if_neg (by rw [hj]; simp), if_neg (by rw [ha]; simpa using h), vset_self]

/-- On a port in service no join deadline stands. -/
theorem beatPort_service (hst : (u.ports[p]).state = .active ∨ (u.ports[p]).state = .leaving) :
    beatPort p u = expireJoin p (holdBeat p (u.marked p)) := by
  have h : (u.ports[p]).state ≠ .admitted := by rcases hst with h | h <;> rw [h] <;> simp
  rw [← schedule_mark hst]
  exact if_neg h

theorem expireJoin_idle {w : State} (h : (w.ports[p]).state ≠ .joining) : expireJoin p w = w := if_neg fun e => h e.1

theorem holdBeat_idle {w : State} (h : (w.ports[p]).state ≠ .active ∨ (w.ports[p]).held = false) : holdBeat p w = w :=
  if_neg fun e => h.elim (· e.1) (fun hh => by rw [hh] at e; exact absurd e.2 (by simp))

/-- A port in service whose hold limit the beat does not reach. -/
theorem BeatPort.service (hst : (u.ports[p]).state = .active ∨ (u.ports[p]).state = .leaving) (hh : u.holdEnds p = false) :
    BeatPort p u (beatPort p u) := by
  have ha : u.admits u.tb.beat p = false := by rcases hst with h | h <;> simp [State.admits, h, -Fin.getElem_fin]
  have hj : u.joinEnds u.tb.beat p = false := by rcases hst with h | h <;> simp [State.joinEnds, h, -Fin.getElem_fin]
  have hnj : (u.ports[p]).state ≠ .joining := by rcases hst with h | h <;> rw [h] <;> simp
  rw [beatPort_service hst]
  by_cases hheld : (u.ports[p]).state = .active ∧ (u.ports[p]).held = true
  · have hlim : ¬ u.settings.holdLimit ≤ (u.ports[p]).holdBeats + 1 := by
      simpa [State.holdEnds, hheld.1, hheld.2, -Fin.getElem_fin] using hh
    have hbeat : holdBeat p (u.marked p) =
        { u with ports := u.ports.set p { u.ports[p] with holdBeats := (u.ports[p]).holdBeats + 1 }
                 delays := u.delays.set p (u.delayBeat p), egress := u.egress.set p (u.egressBeat p) } := by
      refine (if_pos hheld).trans (if_neg fun e => hlim ?_)
      have := e.2.2
      simp only [modPort, vget_set, if_true] at this
      exact this
    rw [hbeat, expireJoin_idle (by simp only [vget_set, if_true]; exact hnj)]
    exact BeatPort.quiet ha hj hh
      (by simp only [State.portBeat, ha, hj, hh, hheld.1, hheld.2, and_self, Bool.false_eq_true, if_false, if_true]) rfl rfl
  · have hidle : (u.ports[p]).state ≠ .active ∨ (u.ports[p]).held = false := by
      rcases not_and_or.mp hheld with h | h
      · exact .inl h
      · exact .inr (by simpa using h)
    rw [holdBeat_idle (w := u.marked p) hidle, expireJoin_idle (w := u.marked p) hnj]
    have h := BeatPort.quiet (x := u.ports[p]) ha hj hh
      (by simp only [State.portBeat, ha, hj, hh, hheld, Bool.false_eq_true, if_false]) rfl rfl
    simp only [vset_self] at h
    exact h

/-- A held ACTIVE port at its hold limit. -/
theorem BeatPort.limit (hh : u.holdEnds p = true) : BeatPort p u (beatPort p u) := by
  obtain ⟨⟨hact, hheld⟩, hlim⟩ : ((u.ports[p]).state = .active ∧ (u.ports[p]).held = true) ∧
      u.settings.holdLimit ≤ (u.ports[p]).holdBeats + 1 := by
    simpa [State.holdEnds, -Fin.getElem_fin] using hh
  have ha : u.admits u.tb.beat p = false := by simp [State.admits, hact, -Fin.getElem_fin]
  have hj : u.joinEnds u.tb.beat p = false := by simp [State.joinEnds, hact, -Fin.getElem_fin]
  have hport : (u.counted p).ports[p] = { u.ports[p] with holdBeats := (u.ports[p]).holdBeats + 1 } := by
    simp only [State.counted, modPort, vget_set, if_true]; rfl
  have hreached : ((u.counted p).ports[p]).state = .active ∧ ((u.counted p).ports[p]).held ∧
      (u.counted p).settings.holdLimit ≤ ((u.counted p).ports[p]).holdBeats := by rw [hport]; exact ⟨hact, hheld, hlim⟩
  have hbeat : holdBeat p (u.marked p) = modPort p (fun x => { x with holdBeats := 0 }) (shedHeldPort p (u.counted p)) :=
    (if_pos ⟨hact, hheld⟩).trans (if_pos hreached)
  obtain ⟨streams, store, taps, posts, he, htaps, hposts, hnone, hstreams⟩ := each_shedHeldTap p (u := u.counted p)
    (l := (u.counted p).tapsOf p) ((List.nodup_finRange 128).filter _) fun v hv => by
      have := (List.mem_filter.mp hv).2
      cases hx : (u.counted p).taps[v] with
      | none => simp [hx, -Fin.getElem_fin] at this
      | some x => exact ⟨x, rfl, by simpa [hx, -Fin.getElem_fin] using this⟩
  have hmem : ∀ (v : TapIx) x, u.taps[v] = some x → (v ∈ (u.counted p).tapsOf p ↔ x.consumer = p) := fun v x hx => by
    have hx' : (u.counted p).taps[v] = some x := hx
    simp only [State.tapsOf, List.mem_filter, hx', beq_iff_eq]
    exact ⟨And.right, fun h => ⟨List.mem_finRange v, h⟩⟩
  rw [beatPort_service (.inl hact), hbeat, shedHeldPort_eq, he]
  rw [expireJoin_idle (by simp only [modPort, vget_set, if_true, Port.sheds, hport, hact]; simp)]
  refine ⟨streams, store, taps, posts, ?_, fun v => ?_, ⟨fun h => ?_, fun h => ?_, fun _ _ => ⟨hposts, fun hn => hnone ?_⟩⟩,
    fun st => ?_⟩
  · have hcount : ((u.counted p).tapsOf p).countP (fun v => ((u.counted p).taps[v]).any (fun x => !x.pending.isEmpty)) =
        u.heldTaps p := rfl
    rw [hcount]
    simp only [modPort, vget_set, if_true, Vector.set_set, hport, State.portBeat, ha, hj, hh, Bool.false_eq_true, if_false,
      State.keepsUnless, vset_self]
    simp only [State.counted, modPort, State.marked, Vector.set_set]
    rfl
  · rw [htaps v]
    cases hx : u.taps[v] with
    | none => rw [show (u.counted p).taps[v] = none from hx]; simp only [Option.map_none, ite_self]
    | some x =>
      rw [show (u.counted p).taps[v] = some x from hx, Option.map_some, Option.map_some, State.tapBeat]
      by_cases hc : x.consumer = p
      · rw [if_pos ((hmem v x hx).mpr hc), if_pos ⟨hc, hh⟩]
      · rw [if_neg (mt (hmem v x hx).mp hc), if_neg fun e => hc e.1]
  · rw [ha] at h; cases h
  · rw [hj] at h; cases h
  · intro v hv x hx
    by_contra hp
    exact hn ⟨hh, v, x, hx, (hmem v x hx).mp hv, trivial, hp⟩
  · obtain ⟨fifo, hst, hf⟩ := hstreams st
    have htake : ∀ r, u.portTakes p r = r := fun r => by
      simp only [State.portTakes, ha, hj, Bool.false_eq_true, if_false]
    refine ⟨fifo, by simp only [htake]; exact hst, fun hn => hf fun v hv x hx hxs => ?_⟩
    by_contra hp
    exact hn ⟨hh, v, x, hx, (hmem v x hx).mp hv, hxs, hp⟩

end

theorem beatPort_spec (p : PortIx) (u : State) : BeatPort p u (beatPort p u) := by
  by_cases hadm : (u.ports[p]).state = .admitted
  · have hbeat : beatPort p u = admitPort p u := if_pos hadm
    rw [hbeat]
    by_cases he : (u.ports[p]).epoch = some u.tb.beat
    · rw [admitPort_eq hadm he]; exact BeatPort.admission hadm he
    · rw [show admitPort p u = u from if_neg fun e => he e.2]
      exact BeatPort.idle (by simp [State.admits, he, -Fin.getElem_fin]) (by simp [State.joinEnds, hadm, -Fin.getElem_fin])
        (by rw [hadm]; simp) (by rw [hadm]; simp)
  · by_cases hserv : (u.ports[p]).state = .active ∨ (u.ports[p]).state = .leaving
    · cases hh : u.holdEnds p with
      | false => exact BeatPort.service hserv hh
      | true => exact BeatPort.limit hh
    · obtain ⟨h1, h2⟩ := not_or.mp hserv
      have hbeat : beatPort p u = expireJoin p u := by
        have hmark : markBeat p u = u := if_neg hserv
        have hecho : scheduleEcho p u = u := if_neg fun e => h1 e.1
        refine (if_neg hadm).trans ?_
        simp only [hmark, hecho, holdBeat_idle (.inl h1)]
      rw [hbeat]
      by_cases hj : (u.ports[p]).state = .joining ∧ (u.ports[p]).joinDeadline = some u.tb.beat
      · rw [show expireJoin p u = failAttempt p .joinLimit u from if_pos hj]
        exact BeatPort.failure hj.1 hj.2
      · rw [show expireJoin p u = u from if_neg hj]
        exact BeatPort.idle (by simp [State.admits, hadm, -Fin.getElem_fin]) (by simpa [State.joinEnds, -Fin.getElem_fin] using hj) h1 h2

end Sys2Proof.Machine
end

section
namespace Sys2Proof.Machine

/-! ### What a beat brings to all ports (R79) -/

/-- An induction over a run, by the part that has been taken. -/
theorem each_taking {α : Type} {is : List α} {f : α → State → State} {Inv : List α → State → Prop} {s : State} (h : Inv [] s)
    (hstep : ∀ pre i rest, is = pre ++ i :: rest → ∀ u, Inv pre u → Inv (pre ++ [i]) (f i u)) : Inv is (each is f s) := by
  have key : ∀ rest pre u, is = pre ++ rest → Inv pre u → Inv is (each rest f u) := by
    intro rest
    induction rest with
    | nil => intro pre u he hu; rw [he, List.append_nil]; exact hu
    | cons i rest ih => intro pre u he hu; exact ih (pre ++ [i]) _ (by rw [he, List.append_assoc]; rfl) (hstep pre i rest he u hu)
  exact key is [] s rfl h

/-- One entry per port: the new one where the port has been taken. -/
def taken {α : Type} (l : List PortIx) (new : PortIx → α) (old : Vector α 12) : Vector α 12 :=
  Vector.ofFn (fun p => if p ∈ l then new p else old[p])

theorem taken_get {α : Type} (l : List PortIx) (new : PortIx → α) (old : Vector α 12) (p : PortIx) :
    (taken l new old)[p] = if p ∈ l then new p else old[p] := by
  simp only [taken, Fin.getElem_fin, Vector.getElem_ofFn, Fin.eta]

theorem taken_nil {α : Type} (new : PortIx → α) (old : Vector α 12) : taken [] new old = old :=
  Vector.ext fun i hi => (taken_get [] new old ⟨i, hi⟩).trans (if_neg List.not_mem_nil)

theorem taken_set {α : Type} (l : List PortIx) (new : PortIx → α) (old : Vector α 12) (p : PortIx) :
    (taken l new old).set p (new p) = taken (l ++ [p]) new old := by
  refine Vector.ext fun i hi => ?_
  have h := vget_set (taken l new old) p ⟨i, hi⟩ (new p)
  have h' := taken_get (l ++ [p]) new old ⟨i, hi⟩
  rw [taken_get] at h
  refine h.trans (Eq.trans ?_ h'.symm)
  simp only [List.mem_append, List.mem_singleton]
  by_cases hp : (⟨i, hi⟩ : PortIx) = p
  · rw [if_pos hp, if_pos (.inr hp), hp]
  · simp only [hp, if_false, or_false]

/-- A tap once a beat has been taken by ports. -/
def State.tapTaken (b : State) (l : List PortIx) (x : Tap) : Tap :=
  if x.consumer ∈ l ∧ b.holdEnds x.consumer = true then x.shed else x

/-- A stream once a beat has been taken by ports, but for its blocks. -/
def State.streamTaken (b : State) (l : List PortIx) (r : Stream) : Stream := l.foldl (fun r p => b.portTakes p r) r

/-- The streams that a port takes up at the beat. -/
def State.takenBy (b : State) (p : PortIx) : List StreamIx :=
  allStreams.filter (fun st => (b.streams[st]).any (fun r => b.adopter b.tb.beat r == some p))

/-- What the taking up of a stream by a port tells another. -/
def State.resumeNotices (b : State) (c p : PortIx) (st : StreamIx) : Notices :=
  b.tapNotices .streamResumed st (((b.streams[st]).map (·.taps)).getD []) c ++
    if c = p then [(.adopted, be 1 st.val ++ [((b.streams[st]).map (·.tag)).getD 0])] else []

/-- The PORT EVENT that the beat brings for a port. -/
def State.eventOf (b : State) (p : PortIx) : Option (NoticeKind × List Byte) :=
  if b.admits b.tb.beat p then some (.portEvent, portEventFields p .admitted .active .epoch (b.ports[p]).frame)
  else if b.joinEnds b.tb.beat p then some (.portEvent,
    if 3 ≤ (b.ports[p]).failures + 1 then portEventFields p .joining .faulted .fault (b.ports[p]).frame
    else portEventFields p .joining .listening .joinLimit (b.ports[p]).frame)
  else none

/-- What a beat tells once it has been taken by ports. -/
def State.tells (b : State) (l : List PortIx) (posts : List Post) : Prop :=
  (∀ o, OnlyNotices o posts) ∧ noticesTo .service posts = l.filterMap b.eventOf ∧
  (b.TapsAgree → (∀ p ∈ l, ¬ b.portSheds p (fun _ => True)) →
    ∀ c : PortIx, noticesTo (.port c) posts = l.flatMap (fun p => (b.takenBy p).flatMap (b.resumeNotices c p)))

/-- The state in which a beat has been taken by ports. -/
def PortsTaken (l : List PortIx) (b u : State) : Prop := ∃ streams store taps posts, u = { b with
    ports := taken l b.portBeat b.ports, delays := taken l b.delayBeat b.delays, egress := taken l b.egressBeat b.egress
    origins := taken l (fun p => b.keepsUnless p none b.origins[p]) b.origins
    triggers := taken l (fun p => b.keepsUnless p .initial b.triggers[p]) b.triggers
    drainSets := taken l (fun p => b.keepsUnless p [] b.drainSets[p]) b.drainSets
    streams := streams, store := store, taps := taps, posts := b.posts ++ posts } ∧
  (∀ v : TapIx, taps[v] = (b.taps[v]).map (b.tapTaken l)) ∧
  b.tells l posts ∧
  ∀ st : StreamIx, ∃ fifo, streams[st] = (b.streams[st]).map (fun r => { b.streamTaken l r with fifo := fifo }) ∧
    ((∀ p ∈ l, ¬ b.portSheds p (fun x => x.stream = st)) → ∀ r, b.streams[st] = some r → fifo = r.fifo)

theorem portsTaken_nil (b : State) : PortsTaken [] b b := by
  refine ⟨b.streams, b.store, b.taps, [], ?_, fun v => ?_, ⟨fun _ _ hx => (List.not_mem_nil hx).elim, rfl, fun _ _ _ => rfl⟩,
    fun st => ?_⟩
  · simp only [taken_nil, List.append_nil]
  · have : ∀ x, b.tapTaken [] x = x := fun x => if_neg fun e => (List.not_mem_nil e.1).elim
    cases b.taps[v] with
    | none => rfl
    | some x => rw [Option.map_some, this]
  · cases hr : b.streams[st] with
    | none => exact ⟨[], rfl, fun _ r hr => by cases hr⟩
    | some r => exact ⟨r.fifo, rfl, fun _ r' hr' => by cases hr'; rfl⟩

end Sys2Proof.Machine
end

section
namespace Sys2Proof.Machine

/-- Of all that a beat does to a port, two states agree on what it reads. -/
structure SameFor (p : PortIx) (b u : State) : Prop where
  ports : u.ports[p] = b.ports[p]
  delays : u.delays[p] = b.delays[p]
  egress : u.egress[p] = b.egress[p]
  origins : u.origins[p] = b.origins[p]
  triggers : u.triggers[p] = b.triggers[p]
  drainSets : u.drainSets[p] = b.drainSets[p]
  tb : u.tb = b.tb
  settings : u.settings = b.settings
  clock : u.clock = b.clock
  taps : ∀ (v : TapIx) x, u.taps[v] = some x ∧ x.consumer = p ↔ b.taps[v] = some x ∧ x.consumer = p

section
variable {p : PortIx} {b u : State} (h : SameFor p b u)
include h

theorem SameFor.admits (n : Beat) : u.admits n p = b.admits n p := by simp only [State.admits, h.ports]

theorem SameFor.joinEnds (n : Beat) : u.joinEnds n p = b.joinEnds n p := by simp only [State.joinEnds, h.ports]

theorem SameFor.holdEnds : u.holdEnds p = b.holdEnds p := by simp only [State.holdEnds, h.ports, h.settings]

theorem SameFor.frameId : u.frameId p = b.frameId p := by simp only [State.frameId, h.ports]

theorem SameFor.tapsOf : u.tapsOf p = b.tapsOf p := by
  refine List.filter_congr fun v _ => ?_
  have hw : ∀ w : State, (match w.taps[v] with | some x => x.consumer == p | none => false) = true ↔
      ∃ x, w.taps[v] = some x ∧ x.consumer = p := fun w => by
    cases w.taps[v] with
    | none => simp
    | some x => simp
  exact Bool.eq_iff_iff.mpr ((hw u).trans ((exists_congr fun x => h.taps v x).trans (hw b).symm))

theorem SameFor.heldTaps : u.heldTaps p = b.heldTaps p := by
  unfold State.heldTaps
  rw [h.tapsOf]
  refine List.countP_congr fun v hv => ?_
  have hc := (List.mem_filter.mp hv).2
  cases hx : b.taps[v] with
  | none => simp [hx, -Fin.getElem_fin] at hc
  | some x =>
    have hxp : x.consumer = p := by simpa [hx, -Fin.getElem_fin] using hc
    rw [((h.taps v x).mpr ⟨hx, hxp⟩).1]

theorem SameFor.portBeat : u.portBeat p = b.portBeat p := by
  simp only [State.portBeat, h.admits, h.joinEnds, h.holdEnds, h.heldTaps, h.ports, h.clock, h.tb]

theorem SameFor.delayBeat : u.delayBeat p = b.delayBeat p := by
  simp only [State.delayBeat, h.admits, h.joinEnds, h.ports, h.delays, State.echoDue, h.tb, h.settings]

theorem SameFor.egressBeat : u.egressBeat p = b.egressBeat p := by
  simp only [State.egressBeat, h.admits, h.joinEnds, h.ports, h.egress, h.tb]

theorem SameFor.keepsUnless {α : Type} (gone kept : α) : u.keepsUnless p gone kept = b.keepsUnless p gone kept := by
  simp only [State.keepsUnless, h.joinEnds, h.tb]

theorem SameFor.portTakes : u.portTakes p = b.portTakes p := by
  funext r
  simp only [State.portTakes, h.admits, h.joinEnds, State.takeUpOf, h.frameId, h.tb]

theorem SameFor.tapBeat : u.tapBeat p = b.tapBeat p := by
  funext x
  simp only [State.tapBeat, h.holdEnds]

theorem SameFor.portSheds (of : Tap → Prop) : u.portSheds p of ↔ b.portSheds p of := by
  simp only [State.portSheds, h.holdEnds]
  refine and_congr_right fun _ => exists_congr fun v => exists_congr fun x => ?_
  have := h.taps v x
  tauto

end

/-- A port that has not been taken yet is as it was. -/
theorem PortsTaken.same {l : List PortIx} {b u : State} (h : PortsTaken l b u) {p : PortIx} (hp : p ∉ l) : SameFor p b u := by
  obtain ⟨streams, store, taps, posts, rfl, htaps, -⟩ := h
  refine ⟨?_, ?_, ?_, ?_, ?_, ?_, rfl, rfl, rfl, fun v x => ?_⟩
  iterate 6 exact (taken_get ..).trans (if_neg hp)
  have hone : ∀ y, y.consumer = p → b.tapTaken l y = y := fun y hy => if_neg fun e => hp (hy ▸ e.1)
  have hcons : ∀ y, (b.tapTaken l y).consumer = y.consumer := fun y => by unfold State.tapTaken; split <;> rfl
  show taps[v] = some x ∧ _ ↔ _
  rw [htaps v]
  cases b.taps[v] with
  | none => simp
  | some y =>
    simp only [Option.map_some, Option.some.injEq]
    constructor
    · rintro ⟨rfl, hx⟩
      rw [hcons] at hx
      rw [hone y hx]
      exact ⟨rfl, hx⟩
    · rintro ⟨rfl, hx⟩
      exact ⟨hone y hx, hx⟩

/-- The streams taken by one more port. -/
theorem streamTaken_append (b : State) (l : List PortIx) (p : PortIx) (r : Stream) :
    b.streamTaken (l ++ [p]) r = b.portTakes p (b.streamTaken l r) := by
  simp only [State.streamTaken, List.foldl_append, List.foldl_cons, List.foldl_nil]

theorem portTakes_fifo (b : State) (p : PortIx) (r : Stream) (fifo : List Block) :
    b.portTakes p { r with fifo := fifo } = { b.portTakes p r with fifo := fifo } := by
  unfold State.portTakes State.takeUpOf Stream.forgets
  split
  · dsimp only; split <;> rfl
  · split
    · dsimp only; split <;> rfl
    · rfl

end Sys2Proof.Machine
end

section
namespace Sys2Proof.Machine

/-! ### What a beat does to a stream through the ports -/

/-- The port of a list that takes a stream up at the beat. -/
def State.adopterIn (b : State) (l : List PortIx) (r : Stream) : Option PortIx :=
  if r.state = .orphaned then l.find? (fun p => b.admits b.tb.beat p && b.frameId p == some r.frameId) else none

/-- A stream that a port has taken up, if one has. -/
def Stream.adoptedBy (r : Stream) : Option PortIx → Stream
  | some p => r.takenUp p
  | none => r

/-- Whether the origin of a close order outlives the beat. -/
def State.outlives (b : State) (l : List PortIx) (o : Origin) : Bool :=
  match o with
  | .port p => !(decide (p ∈ l) && b.joinEnds b.tb.beat p)
  | .service => true

theorem admits_joinEnds {b : State} {p : PortIx} {n : Beat} (h : b.admits n p = true) : b.joinEnds n p = false := by
  have : (b.ports[p]).state = .admitted := by
    have := (Bool.and_eq_true _ _ ▸ h : _ ∧ _).1
    simpa using this
  simp [State.joinEnds, this, -Fin.getElem_fin]

theorem adopterIn_append (b : State) (l : List PortIx) (p : PortIx) (r : Stream) : b.adopterIn (l ++ [p]) r =
    (b.adopterIn l r).or (if r.state = .orphaned ∧ b.admits b.tb.beat p = true ∧ b.frameId p = some r.frameId then some p else none) := by
  unfold State.adopterIn
  by_cases hr : r.state = .orphaned
  · simp only [hr, if_true, List.find?_append, true_and, List.find?_singleton, Bool.and_eq_true, beq_iff_eq]
  · simp only [hr, if_false, false_and, Option.or_none]

theorem outlives_append (b : State) (l : List PortIx) (p : PortIx) (o : Origin) : b.outlives (l ++ [p]) o =
    (b.outlives l o && !(o == .port p && b.joinEnds b.tb.beat p)) := by
  cases o with
  | service => rfl
  | port q =>
    simp only [State.outlives, List.mem_append, List.mem_singleton]
    by_cases hq : q = p
    · subst hq; cases b.joinEnds b.tb.beat q <;> simp
    · have : (Origin.port q == Origin.port p) = false := by simpa using hq
      simp [hq, this]

theorem streamTaken_eq (b : State) (r : Stream) (l : List PortIx) : b.streamTaken l r =
    { r.adoptedBy (b.adopterIn l r) with closeBy := r.closeBy.filter (b.outlives l) } := by
  induction l using List.reverseRecOn with
  | nil =>
    have hc : r.closeBy.filter (b.outlives []) = r.closeBy := by
      rcases hcl : r.closeBy with _ | _ | q <;> rfl
    have ha : b.adopterIn [] r = none := by unfold State.adopterIn; split <;> rfl
    rw [hc, ha]; rfl
  | append_singleton l p ih =>
    rw [streamTaken_append, ih, adopterIn_append]
    have hclose : r.closeBy.filter (b.outlives (l ++ [p])) =
        (r.closeBy.filter (b.outlives l)).filter (fun o => !(o == .port p && b.joinEnds b.tb.beat p)) := by
      rw [Option.filter_filter]
      exact congrArg (Option.filter · r.closeBy) (funext fun o => outlives_append b l p o)
    rw [hclose]
    generalize r.closeBy.filter (b.outlives l) = c
    have hall : b.joinEnds b.tb.beat p = false → c.filter (fun o => !(o == .port p && b.joinEnds b.tb.beat p)) = c := fun hj => by
      rw [hj]; cases c <;> simp
    unfold State.portTakes
    cases ha : b.admits b.tb.beat p with
    | true =>
      rw [hall (admits_joinEnds ha), if_pos rfl]
      unfold State.takeUpOf
      cases hin : b.adopterIn l r with
      | some q => exact if_neg fun e => by cases e.1
      | none =>
        by_cases ho : r.state = .orphaned ∧ b.frameId p = some r.frameId
        · rw [if_pos (by exact ho), if_pos ⟨ho.1, rfl, ho.2⟩]; rfl
        · rw [if_neg (by exact ho), if_neg fun e => ho ⟨e.1, e.2.2⟩]; rfl
    | false =>
      have hor : (b.adopterIn l r).or (if r.state = .orphaned ∧ false = true ∧ b.frameId p = some r.frameId then some p else none) =
          b.adopterIn l r := by simp
      rw [hor, if_neg (by simp)]
      cases hj : b.joinEnds b.tb.beat p with
      | true =>
        rw [if_pos rfl]
        unfold Stream.forgets
        rcases c with _ | o
        · rfl
        · by_cases ho : o = .port p
          · subst ho; simp [Option.filter]
          · simp [ho, Option.filter]
      | false => rw [← hj, hall hj, hj, if_neg (by simp)]

end Sys2Proof.Machine
end

section
namespace Sys2Proof.Machine

section
variable {pre rest : List PortIx} {p : PortIx} {b u : State}

theorem tapTaken_tap (b : State) (l : List PortIx) (x : Tap) : (b.tapTaken l x).consumer = x.consumer ∧
    (b.tapTaken l x).tag = x.tag ∧ (b.tapTaken l x).stream = x.stream := by
  unfold State.tapTaken; split <;> exact ⟨rfl, rfl, rfl⟩

/-- A tap taken by one more port. -/
theorem tapTaken_append (hp : p ∉ pre) (x : Tap) : b.tapBeat p (b.tapTaken pre x) = b.tapTaken (pre ++ [p]) x := by
  unfold State.tapBeat
  rw [(tapTaken_tap b pre x).1]
  unfold State.tapTaken
  by_cases hx : x.consumer = p
  · subst hx
    simp only [hp, false_and, if_false, List.mem_append, List.mem_singleton, or_true, true_and]
  · simp only [hx, false_and, if_false, List.mem_append, List.mem_singleton, or_false]

theorem streamTaken_tap (b : State) (l : List PortIx) (r : Stream) : (b.streamTaken l r).taps = r.taps ∧
    (b.streamTaken l r).tag = r.tag ∧ (b.streamTaken l r).frameId = r.frameId := by
  rw [streamTaken_eq]
  cases b.adopterIn l r <;> exact ⟨rfl, rfl, rfl⟩

/-- The lists and records of taps agree once the beat has been taken by ports. -/
theorem PortsTaken.agree (h : PortsTaken pre b u) (hb : b.TapsAgree) : u.TapsAgree := by
  obtain ⟨streams, store, taps, posts, rfl, htaps, -, hstreams⟩ := h
  intro st r' hr'
  obtain ⟨fifo, hst, -⟩ := hstreams st
  obtain ⟨r, hr, rfl⟩ := Option.map_eq_some_iff.mp (hst.symm.trans hr')
  obtain ⟨hn, hm⟩ := hb st r hr
  rw [show ({ b.streamTaken pre r with fifo := fifo } : Stream).taps = r.taps from (streamTaken_tap b pre r).1]
  refine ⟨hn, fun t => (hm t).trans ?_⟩
  show (∃ x, b.taps[t] = some x ∧ x.stream = st) ↔ ∃ x, taps[t] = some x ∧ x.stream = st
  rw [htaps t]
  cases b.taps[t] with
  | none => simp
  | some x => simp [(tapTaken_tap b pre x).2.2]

/-- What a port's taps are told is the same before and after. -/
theorem PortsTaken.tapNotices (h : PortsTaken pre b u) (k : NoticeKind) (st : StreamIx) (l : List TapIx) (c : PortIx) :
    u.tapNotices k st l c = b.tapNotices k st l c := by
  obtain ⟨streams, store, taps, posts, rfl, htaps, -⟩ := h
  refine List.filterMap_congr fun v _ => ?_
  show (match taps[v] with | some x => _ | none => _) = _
  rw [htaps v]
  cases b.taps[v] with
  | none => rfl
  | some x =>
    obtain ⟨hc, ht, -⟩ := tapTaken_tap b pre x
    simp only [Option.map_some, hc, ht]

/-- A port that enters ACTIVE takes up the orphans of its frame that no port before it has taken. -/
theorem adopterIn_split {r : Stream} (ha : b.admits b.tb.beat p = true) (hp : p ∉ pre) (hr : p ∉ rest) :
    b.adopterIn (pre ++ p :: rest) r = some p ↔
      b.adopterIn pre r = none ∧ r.state = .orphaned ∧ b.frameId p = some r.frameId := by
  unfold State.adopterIn
  by_cases ho : r.state = .orphaned
  · simp only [ho, if_true, List.find?_append, true_and, List.find?_cons, ha, Bool.true_and]
    cases hf : pre.find? (fun q => b.admits b.tb.beat q && b.frameId q == some r.frameId) with
    | some q =>
      have hq : q ≠ p := fun e => hp (e ▸ List.mem_of_find?_eq_some hf)
      simp [hq]
    | none =>
      by_cases hfr : b.frameId p = some r.frameId
      · simp [hfr]
      · have hb : (b.frameId p == some r.frameId) = false := by simpa using hfr
        simp only [hb, Option.none_or, hfr, and_false, iff_false]
        exact fun e => hr (List.mem_of_find?_eq_some e)
  · simp [ho]

/-- The orphans that a port finds are those that it takes up at the beat. -/
theorem PortsTaken.orphans (h : PortsTaken pre b u) (hall : allPorts = pre ++ p :: rest)
    (ha : b.admits b.tb.beat p = true) (hp : p ∉ pre) : allStreams.filter (u.isOrphanOf p) = b.takenBy p := by
  have hframe := (h.same hp).frameId
  obtain ⟨streams, store, taps, posts, rfl, -, -, hstreams⟩ := h
  refine List.filter_congr fun st _ => ?_
  obtain ⟨fifo, hst, -⟩ := hstreams st
  cases hr : b.streams[st] with
  | none =>
    rw [hr, Option.map_none] at hst
    simp only [State.isOrphanOf, hst, Option.any_none]
  | some r =>
    rw [hr, Option.map_some] at hst
    refine Bool.eq_iff_iff.mpr ((isOrphanOf_iff hst).trans ?_)
    rw [hframe, streamTaken_eq, Option.any_some, beq_iff_eq,
      show b.adopter b.tb.beat r = b.adopterIn allPorts r from rfl, hall, adopterIn_split ha hp]
    · cases hin : b.adopterIn pre r with
      | some q => simp [Stream.adoptedBy, Stream.takenUp]
      | none => simp [Stream.adoptedBy]
    · exact fun hq => (List.nodup_middle.mp (hall ▸ nodup_allPorts)).notMem (List.mem_append_right _ hq)

end

end Sys2Proof.Machine
end

section
namespace Sys2Proof.Machine

section
variable {pre rest : List PortIx} {p : PortIx} {b u : State} {posts : List Post}

theorem noticesTo_other {o o' : Origin} {l : List Post} (h : ∀ x ∈ l, x.dest = o') (hne : o' ≠ o) : noticesTo o l = [] := by
  refine List.filterMap_eq_nil_iff.mpr fun x hx => ?_
  have := h x hx
  split
  · rw [if_neg (this ▸ hne)]
  · rfl

/-- What one port tells S at the beat; what it posts are notices. -/
theorem portTells_service (h : u.portTells p posts) (hs : SameFor p b u) :
    (∀ o, OnlyNotices o posts) ∧ noticesTo .service posts = (b.eventOf p).toList := by
  obtain ⟨hadm, hjoin, helse⟩ := h
  rw [hs.tb, hs.admits] at hadm
  rw [hs.tb, hs.joinEnds] at hjoin
  rw [hs.tb, hs.admits, hs.joinEnds] at helse
  unfold State.eventOf
  cases ha : b.admits b.tb.beat p with
  | true =>
    rw [hadm ha]
    refine ⟨fun o => onlyNotices_admitPosts o u p, ?_⟩
    rw [noticesTo_admitPosts_service, hs.ports]
    rfl
  | false =>
    cases hj : b.joinEnds b.tb.beat p with
    | true =>
      rw [hjoin hj]
      refine ⟨fun o => onlyNotices_postsTo o _ _, ?_⟩
      rw [noticesTo_postsTo, if_pos rfl, hs.ports, Port.afterFailure]
      by_cases hf : 3 ≤ (b.ports[p]).failures + 1
      · simp only [hf, if_true, Bool.false_eq_true, if_false, Option.toList_some]
      · simp only [hf, if_true, Bool.false_eq_true, if_false, Option.toList_some]
    | false =>
      obtain ⟨hnotices, -⟩ := helse ha hj
      refine ⟨fun o x hx _ => (hnotices x hx).2, noticesTo_other (fun x hx => (hnotices x hx).1) (by simp)⟩

theorem takenBy_nil (ha : b.admits b.tb.beat p = false) : b.takenBy p = [] := by
  refine List.filter_eq_nil_iff.mpr fun st _ h => ?_
  obtain ⟨r, -, hr⟩ := (Option.any_eq_true _ _).mp h
  have hr : b.adopterIn allPorts r = some p := beq_iff_eq.mp hr
  unfold State.adopterIn at hr
  split at hr
  · have := List.find?_some hr
    rw [ha] at this; cases this
  · cases hr

/-- What one port tells another where nothing is shed: of the orphans that it takes up. -/
theorem portTells_port (h : u.portTells p posts) (hpre : PortsTaken pre b u) (hall : allPorts = pre ++ p :: rest)
    (hp : p ∉ pre) (hagree : b.TapsAgree) (hshed : ¬ b.portSheds p (fun _ => True)) (c : PortIx) :
    noticesTo (.port c) posts = (b.takenBy p).flatMap (b.resumeNotices c p) := by
  have hs := hpre.same hp
  obtain ⟨hadm, hjoin, helse⟩ := h
  rw [hs.tb, hs.admits] at hadm
  rw [hs.tb, hs.joinEnds] at hjoin
  rw [hs.tb, hs.admits, hs.joinEnds] at helse
  cases ha : b.admits b.tb.beat p with
  | true =>
    rw [hadm ha, noticesTo_admitPosts_port, hpre.orphans hall ha hp, noticesTo_flatMap]
    refine List.flatMap_congr fun st hst => ?_
    obtain ⟨r, hr, -⟩ := (Option.any_eq_true _ _).mp (List.mem_filter.mp hst).2
    obtain ⟨fifo, hu, htap⟩ : ∃ fifo, u.streams[st] = some { b.streamTaken pre r with fifo := fifo } ∧ True := by
      obtain ⟨streams, store, taps, posts, rfl, -, -, hstreams⟩ := hpre
      obtain ⟨fifo, hst, -⟩ := hstreams st
      exact ⟨fifo, by rw [hr] at hst; exact hst, trivial⟩
    obtain ⟨h1, h2, -⟩ := streamTaken_tap b pre r
    rw [noticesTo_adoptPosts (hpre.agree hagree) hu, hpre.tapNotices, State.resumeNotices, hr]
    simp only [h1, h2, Option.map_some, Option.getD_some]
  | false =>
    rw [takenBy_nil ha, List.flatMap_nil]
    cases hj : b.joinEnds b.tb.beat p with
    | true => rw [hjoin hj, noticesTo_postsTo, if_neg (by simp)]
    | false => rw [(helse ha hj).2 (mt (hs.portSheds _).mp hshed)]; rfl

theorem portsTaken_step (hall : allPorts = pre ++ p :: rest) (h : PortsTaken pre b u) :
    PortsTaken (pre ++ [p]) b (beatPort p u) := by
  have hp : p ∉ pre := fun hm => (List.nodup_middle.mp (hall ▸ nodup_allPorts)).notMem (List.mem_append_left _ hm)
  have hs := h.same hp
  obtain ⟨streams', store', taps', posts', he, htaps', htells', hstreams'⟩ := beatPort_spec p u
  have hservice := portTells_service htells' hs
  have hport := portTells_port htells' h hall hp
  obtain ⟨streams, store, taps, posts, rfl, htaps, ⟨honly, hserv, hports⟩, hstreams⟩ := h
  refine ⟨streams', store', taps', posts ++ posts', ?_, fun v => ?_, ⟨fun o => ?_, ?_, fun hagree hshed c => ?_⟩, fun st => ?_⟩
  · rw [he, hs.portBeat, hs.delayBeat, hs.egressBeat, hs.keepsUnless, hs.keepsUnless, hs.keepsUnless, hs.origins, hs.triggers,
      hs.drainSets]
    simp only [← taken_set, List.append_assoc]
  · rw [htaps' v, htaps v, Option.map_map, hs.tapBeat]
    exact congrArg (Option.map · _) (funext fun x => tapTaken_append hp x)
  · exact onlyNotices_append (honly o) (hservice.1 o)
  · rw [noticesTo_append, hserv, hservice.2, List.filterMap_append]
    rfl
  · rw [noticesTo_append, hports hagree (fun q hq => hshed q (List.mem_append_left _ hq)) c,
      hport hagree (hshed p (List.mem_append_right _ (List.mem_singleton_self p))) c, List.flatMap_append,
      List.flatMap_singleton]
  · obtain ⟨fifo, hst, hf⟩ := hstreams st
    obtain ⟨fifo', hst', hf'⟩ := hstreams' st
    refine ⟨fifo', ?_, fun hn r hr => ?_⟩
    · rw [hst']
      simp only [hst, Option.map_map, hs.portTakes]
      refine congrArg (Option.map · _) (funext fun r => ?_)
      simp only [Function.comp_apply, portTakes_fifo, streamTaken_append]
    · have := hf (fun q hq => hn q (List.mem_append_left _ hq)) r hr
      rw [hr, Option.map_some] at hst
      rw [← this]
      exact hf' (mt (hs.portSheds _).mp (hn p (List.mem_append_right _ (List.mem_singleton_self p)))) _ hst

end

/-- The ports take the beat. -/
theorem portsTaken_all (b : State) : PortsTaken allPorts b (each allPorts beatPort b) :=
  each_taking (Inv := fun l u => PortsTaken l b u) (portsTaken_nil b) fun _ _ _ hall _ h => portsTaken_step hall h

end Sys2Proof.Machine
end

section
namespace Sys2Proof.Machine

/-! ### BEAT_DUE, stage by stage (R79) -/

theorem beatOf_eq (s : State) : s.beatOf = BitVec.ofNat 32 (s.clock.rackTime.toNat / 256 / 2 ^ s.tb.beatExp) := by
  rw [State.beatOf, Nat.div_div_eq_div_mul, Nat.pow_add]

/-- The state in which a beat has begun, and the states in which ports, taps and streams have taken it. -/
def State.beatBegun (s : State) : State := { s with posts := [], tb := { s.tb with beat := s.beatOf } }

def State.afterPorts (s : State) : State := each allPorts beatPort s.beatBegun

def State.afterTaps (s : State) : State := each allTaps applyStaged s.afterPorts

def State.afterStreams (s : State) : State := each allStreams beatStream s.afterTaps

/-- The state at the end of the event of a beat. -/
def State.beatTaken (s : State) : State := finish s (holdoverBeat s.afterStreams)

section
variable {s : State} (hrest : s.atRest = false)
include hrest

theorem beatDue_runs (hn : s.beatOf ≠ s.tb.beat) : exec .beatDue s = .next s.beatTaken := by
  have hdue : dueBeat (begin_ s) = holdoverBeat s.afterStreams := if_neg hn
  exact (event_running (f := dueBeat) hrest).trans (by rw [hdue]; rfl)

theorem beatDue_idle (hn : s.beatOf = s.tb.beat) : exec .beatDue s = .next (begin_ s) := by
  have hdue : dueBeat (begin_ s) = begin_ s := if_pos hn
  refine (event_running (f := dueBeat) hrest).trans ?_
  rw [hdue]
  exact congrArg Host.Outcome.next (finish_untouched rfl rfl (fun _ => id) rfl rfl rfl)

end

/-! ### The holdover count (R62, R77) -/

/-- The timebase after a beat, given the holdover limit and the local trim. -/
def Timebase.takesBeat (x : Timebase) (limit : Nat) (trim : Int) : Timebase :=
  if x.state ≠ .holdover then x
  else if x.holdoverBeats + 1 < limit then { x with holdoverBeats := x.holdoverBeats + 1 }
  else { ({ x with holdoverBeats := x.holdoverBeats + 1 } : Timebase).frees trim with
    holdoverExpiries := satAdd x.holdoverExpiries 1 }

/-- What the end of a holdover tells S. -/
def State.holdoverNotices (u : State) : Notices :=
  if u.tb.state = .holdover ∧ u.settings.holdoverLimit ≤ u.tb.holdoverBeats + 1 then
    [(.timebaseEvent, timebaseFields 3 0 8 15 0 u.settings.localTrim u.now)] else []

theorem holdoverBeat_eq (u : State) : holdoverBeat u = { u with
    tb := u.tb.takesBeat u.settings.holdoverLimit u.settings.localTrim
    posts := u.posts ++ postsTo .service u.holdoverNotices } := by
  unfold holdoverBeat Timebase.takesBeat State.holdoverNotices
  by_cases hst : u.tb.state = .holdover
  · by_cases hlim : u.tb.holdoverBeats + 1 < u.settings.holdoverLimit
    · have hexp : ¬ ((modTb (fun t => { t with holdoverBeats := t.holdoverBeats + 1 }) u).tb.state = .holdover ∧
          u.settings.holdoverLimit ≤ u.tb.holdoverBeats + 1) := fun e => by have := e.2; omega
      have hnot : ¬ (u.tb.state = .holdover ∧ u.settings.holdoverLimit ≤ u.tb.holdoverBeats + 1) := hexp
      rw [if_pos hst, if_neg (by simpa using hst), if_pos hlim, if_neg hnot]
      exact (if_neg hexp).trans (by simp only [postsTo, List.map_nil, List.append_nil]; rfl)
    · have hexp : (modTb (fun t => { t with holdoverBeats := t.holdoverBeats + 1 }) u).tb.state = .holdover ∧
          u.settings.holdoverLimit ≤ u.tb.holdoverBeats + 1 := ⟨hst, by omega⟩
      have hyes : u.tb.state = .holdover ∧ u.settings.holdoverLimit ≤ u.tb.holdoverBeats + 1 := hexp
      rw [if_pos hst, if_neg (by simpa using hst), if_neg hlim, if_pos hyes]
      refine (if_pos hexp).trans ?_
      rw [enterFree_eq]
      simp only [modTb, hst]
      rfl
  · rw [if_neg hst, if_pos hst, if_neg fun e => hst e.1]
    simp only [postsTo, List.map_nil, List.append_nil]

theorem holdoverBeat_keeps (u : State) : (holdoverBeat u).origins = u.origins ∧ (holdoverBeat u).drainSets = u.drainSets ∧
    (holdoverBeat u).streams = u.streams ∧ (holdoverBeat u).taps = u.taps := by
  rw [holdoverBeat_eq]; exact ⟨rfl, rfl, rfl, rfl⟩

/-! ### What taps and streams leave alone -/

theorem tables_modTap (t : TapIx) (f : Tap → Tap) (s : State) : Tables s (modTap t f s) := ⟨_, _, _, _, _, _, _, _, rfl⟩

theorem tables_applyStaged (t : TapIx) (s : State) : Tables s (applyStaged t s) := by
  unfold applyStaged
  split
  · exact .refl s
  · split
    · exact .refl s
    · exact tables_modTap ..

theorem tables_expireOrphan (st : StreamIx) (s : State) : Tables s (expireOrphan st s) := by
  unfold expireOrphan
  split
  · exact .refl s
  · split
    · exact tables_modStream ..
    · exact .refl s

theorem tables_expireDrain (st : StreamIx) (s : State) : Tables s (expireDrain st s) := by
  unfold expireDrain
  split
  · exact .refl s
  · split
    · exact tables_endDrain ..
    · exact .refl s

theorem tables_startStream (st : StreamIx) (s : State) : Tables s (startStream st s) := tables_modStream ..

theorem tables_beatStream (st : StreamIx) (s : State) : Tables s (beatStream st s) :=
  ((tables_startStream st s).trans (tables_expireOrphan st _)).trans (tables_expireDrain st _)

theorem tables_afterStreams (s : State) : Tables s.afterPorts s.afterStreams :=
  (Tables.each tables_applyStaged _).trans (Tables.each tables_beatStream _)

theorem tables_holdoverBeat {s u : State} {x : Timebase} (h : Tables s u)
    (hx : s.tb.takesBeat s.settings.holdoverLimit s.settings.localTrim = x) : Tables { s with tb := x } (holdoverBeat u) := by
  subst hx
  rw [holdoverBeat_eq]
  obtain ⟨_, _, _, _, _, _, _, _, rfl⟩ := h
  exact ⟨_, _, _, _, _, _, _, _, rfl⟩

theorem afterPorts_tb (s : State) : s.afterPorts.tb = s.beatBegun.tb ∧ s.afterPorts.settings = s.settings ∧
    s.afterPorts.clock = s.clock := by
  obtain ⟨_, _, _, _, hports, -⟩ := portsTaken_all s.beatBegun
  rw [State.afterPorts, hports]
  exact ⟨rfl, rfl, rfl⟩

/-- What the ports have taken stands to the end of the event, the timebase once it has counted. -/
theorem tables_beatTaken (s : State) : Tables { s.afterPorts with
    tb := s.beatBegun.tb.takesBeat s.settings.holdoverLimit s.settings.localTrim } s.beatTaken := by
  obtain ⟨htb, hset, -⟩ := afterPorts_tb s
  rw [State.beatTaken]
  exact (tables_holdoverBeat (tables_afterStreams s) (by rw [htb, hset])).trans (tables_finish s _)

/-- The links after a beat. -/
theorem beatTaken_links (s : State) (p : PortIx) : (s.beatTaken.ports[p] = s.beatBegun.portBeat p ∧
    s.beatTaken.delays[p] = s.beatBegun.delayBeat p) ∧ s.beatTaken.egress[p] = s.beatBegun.egressBeat p ∧
    s.beatTaken.triggers[p] = s.beatBegun.keepsUnless p .initial s.triggers[p] := by
  have ht := tables_beatTaken s
  obtain ⟨_, _, _, _, hports, -⟩ := portsTaken_all s.beatBegun
  rw [ht.ports, ht.delays, ht.egress, ht.triggers, State.afterPorts, hports]
  simp only [taken_get, mem_allPorts, if_true]
  exact ⟨⟨trivial, trivial⟩, trivial, rfl⟩

/-- A port whose attempt fails at a beat has no queue and no drain set from then on. -/
theorem beatTaken_emptyOrigin {s : State} {p : PortIx} (hj : s.joinEnds s.beatOf p = true) :
    s.beatTaken.origins[p] = none ∧ s.beatTaken.drainSets[p] = [] := by
  have hkeep := emptyOrigin_keeps p
  have hports : s.afterPorts.origins[p] = none ∧ s.afterPorts.drainSets[p] = [] := by
    obtain ⟨_, _, _, _, hports, -⟩ := portsTaken_all s.beatBegun
    have hj' : s.beatBegun.joinEnds s.beatBegun.tb.beat p = true := hj
    rw [State.afterPorts, hports]
    simp only [taken_get, mem_allPorts, if_true, State.keepsUnless, hj', and_self]
  have htaps : s.afterTaps.origins[p] = none ∧ s.afterTaps.drainSets[p] = [] := by
    refine each_induct (P := fun u => u.origins[p] = none ∧ u.drainSets[p] = []) (fun t _ u hu => ?_) _ hports
    unfold applyStaged
    split
    · exact hu
    · split
      · exact hu
      · exact hu
  have hstreams : s.afterStreams.origins[p] = none ∧ s.afterStreams.drainSets[p] = [] := by
    refine each_induct (P := fun u => u.origins[p] = none ∧ u.drainSets[p] = []) (fun st _ u hu => ?_) _ htaps
    have horphan : (expireOrphan st (startStream st u)).origins[p] = none ∧
        (expireOrphan st (startStream st u)).drainSets[p] = [] := by
      unfold expireOrphan
      split
      · exact hu
      · split
        · exact hu
        · exact hu
    show (expireDrain st _).origins[p] = none ∧ (expireDrain st _).drainSets[p] = []
    unfold expireDrain
    split
    · exact horphan
    · split
      · exact (hkeep.drains .drainReply).endDrain horphan
      · exact horphan
  have hheld : (holdoverBeat s.afterStreams).origins[p] = none ∧ (holdoverBeat s.afterStreams).drainSets[p] = [] := by
    obtain ⟨ho, hd, -⟩ := holdoverBeat_keeps s.afterStreams
    rw [ho, hd]
    exact hstreams
  rw [State.beatTaken]
  exact hkeep.finish (s := holdoverBeat s.afterStreams) hheld

end Sys2Proof.Machine
end

section
namespace Sys2Proof.Machine

section
variable {s : State} {p : PortIx}

theorem holdEnds_iff : s.holdEnds p = true ↔
    ((s.ports[p]).state = .active ∧ (s.ports[p]).held = true) ∧ s.settings.holdLimit ≤ (s.ports[p]).holdBeats + 1 := by
  simp only [State.holdEnds, Bool.and_eq_true, beq_iff_eq, decide_eq_true_eq]

theorem joinEnds_iff {n : Beat} : s.joinEnds n p = true ↔
    (s.ports[p]).state = .joining ∧ (s.ports[p]).joinDeadline = some n := by
  simp only [State.joinEnds, Bool.and_eq_true, beq_iff_eq]

theorem admits_iff {n : Beat} : s.admits n p = true ↔ (s.ports[p]).state = .admitted ∧ (s.ports[p]).epoch = some n := by
  simp only [State.admits, Bool.and_eq_true, beq_iff_eq]

/-- A port that is not JOINING fails no attempt, one that is not ADMITTED enters nothing. -/
theorem joinEnds_other {n : Beat} (h : (s.ports[p]).state ≠ .joining) : s.joinEnds n p = false :=
  Bool.eq_false_iff.mpr fun e => h (joinEnds_iff.mp e).1

theorem admits_other {n : Beat} (h : (s.ports[p]).state ≠ .admitted) : s.admits n p = false :=
  Bool.eq_false_iff.mpr fun e => h (admits_iff.mp e).1

/-! ### The record of a port after a beat -/

theorem egressBeat_service (h : (s.ports[p]).state = .active ∨ (s.ports[p]).state = .leaving) :
    (s.egressBeat p).dueBeat = some ((s.egress[p]).dueBeat.getD s.tb.beat) := by
  have hj : s.joinEnds s.tb.beat p = false := joinEnds_other (by rcases h with h | h <;> rw [h] <;> simp)
  rw [State.egressBeat, hj, if_neg (by simp), if_pos (.inr h)]

theorem delayBeat_estimate : (s.delayBeat p).estimate =
    if s.joinEnds s.tb.beat p then none else (s.delays[p]).estimate := by
  unfold State.delayBeat
  split
  · rfl
  · split <;> rfl

theorem delayBeat_active (h : (s.ports[p]).state = .active) : (s.delayBeat p).due =
    if s.echoDue p then some .steady else (s.delays[p]).due := by
  have hj : s.joinEnds s.tb.beat p = false := joinEnds_other (by rw [h]; simp)
  rw [State.delayBeat, hj, if_neg (by simp)]
  by_cases he : s.echoDue p
  · rw [if_pos ⟨.inr h, he⟩, if_pos he]
  · rw [if_neg fun e => he e.2, if_neg he]

theorem portBeat_admits (h : s.admits s.tb.beat p = true) : s.portBeat p = (s.ports[p]).admitted := if_pos h

theorem portBeat_admitted (h : (s.ports[p]).state = .admitted) (he : (s.ports[p]).epoch ≠ some s.tb.beat) :
    s.portBeat p = s.ports[p] := by
  have ha : s.admits s.tb.beat p = false := Bool.eq_false_iff.mpr fun e => he (admits_iff.mp e).2
  have hj : s.joinEnds s.tb.beat p = false := joinEnds_other (by rw [h]; simp)
  have hh : s.holdEnds p = false := Bool.eq_false_iff.mpr fun e => by
    have := (holdEnds_iff.mp e).1.1; rw [h] at this; cases this
  simp only [State.portBeat, ha, hj, hh, h, Bool.false_eq_true, if_false, reduceCtorEq, false_and]

theorem portBeat_held (h : (s.ports[p]).state = .active) (hh : (s.ports[p]).held = true)
    (hl : (s.ports[p]).holdBeats + 1 < s.settings.holdLimit) : (s.portBeat p).holdBeats = (s.ports[p]).holdBeats + 1 := by
  have ha : s.admits s.tb.beat p = false := admits_other (by rw [h]; simp)
  have hj : s.joinEnds s.tb.beat p = false := joinEnds_other (by rw [h]; simp)
  have he : s.holdEnds p = false := Bool.eq_false_iff.mpr fun e => by
    have := (holdEnds_iff.mp e).2; omega
  simp only [State.portBeat, ha, hj, he, h, hh, Bool.false_eq_true, if_false, and_self, if_true]

theorem portBeat_holdEnds (h : s.holdEnds p = true) :
    s.portBeat p = { s.ports[p] with holdBeats := 0 }.sheds (s.heldTaps p) := by
  have hact := (holdEnds_iff.mp h).1.1
  have ha : s.admits s.tb.beat p = false := admits_other (by rw [hact]; simp)
  have hj : s.joinEnds s.tb.beat p = false := joinEnds_other (by rw [hact]; simp)
  simp only [State.portBeat, ha, hj, h, Bool.false_eq_true, if_false, if_true]

theorem portBeat_joinEnds (h : s.joinEnds s.tb.beat p = true) : s.portBeat p =
    { s.ports[p] with failures := (s.ports[p]).failures + 1 }.leaves (s.ports[p]).afterFailure s.clock.cycle := by
  have ha : s.admits s.tb.beat p = false := admits_other (by rw [(joinEnds_iff.mp h).1]; simp)
  simp only [State.portBeat, ha, h, Bool.false_eq_true, if_false, if_true]

/-- A failed attempt leaves a port LISTENING or FAULTED, with nothing of its own but the count of its failures. -/
theorem leaves_afterFailure (x y : Port) (cycle : Nat) : let z := y.leaves x.afterFailure cycle
    (z.failures = y.failures ∧ z.frame = none ∧ z.epoch = none ∧ z.joinDeadline = none) ∧ z.held = false ∧ z.holdBeats = 0 ∧
      z.missRun = 0 ∧ z.score = 0 := by
  unfold Port.afterFailure Port.leaves
  split <;> exact ⟨⟨rfl, rfl, rfl, rfl⟩, rfl, rfl, rfl, rfl⟩

theorem holdsNothing_beatTaken (hj : s.joinEnds s.beatOf p = true) : s.beatTaken.HoldsNothing p := by
  obtain ⟨⟨hp, hd⟩, he, htr⟩ := beatTaken_links s p
  obtain ⟨ho, hds⟩ := beatTaken_emptyOrigin hj
  have hj' : s.beatBegun.joinEnds s.beatBegun.tb.beat p = true := hj
  rw [portBeat_joinEnds hj'] at hp
  rw [State.delayBeat, if_pos hj'] at hd
  rw [State.egressBeat, if_pos hj'] at he
  rw [State.keepsUnless, if_pos hj'] at htr
  obtain ⟨⟨-, h1, h2, h3⟩, h4, h5, h6, h7⟩ := leaves_afterFailure (s.beatBegun.ports[p])
    { s.beatBegun.ports[p] with failures := (s.beatBegun.ports[p]).failures + 1 } s.beatBegun.clock.cycle
  unfold State.HoldsNothing
  rw [hp, hd, he, htr, ho, hds]
  exact ⟨h1, h2, h3, h4, h5, h6, h7, rfl, rfl, rfl, rfl, rfl, rfl, rfl, rfl⟩

end

/-! ### The claims of links and timebase -/

theorem takesBeat_beat (x : Timebase) (limit : Nat) (trim : Int) : (x.takesBeat limit trim).beat = x.beat := by
  unfold Timebase.takesBeat
  split
  · rfl
  · split <;> rfl

/-- What the event of a beat leaves alone, and the number of the beat. -/
theorem beatTaken_stands (s : State) : s.beatTaken.tb.beat = s.beatOf ∧ s.beatTaken.clock = s.clock ∧
    s.beatTaken.settings = s.settings ∧ s.beatTaken.pins = s.pins ∧ s.beatTaken.lines = s.lines := by
  have ht := tables_beatTaken s
  obtain ⟨-, hset, hclock⟩ := afterPorts_tb s
  have hpins : s.afterPorts.pins = s.pins ∧ s.afterPorts.lines = s.lines := by
    obtain ⟨_, _, _, _, hports, -⟩ := portsTaken_all s.beatBegun
    rw [State.afterPorts, hports]
    exact ⟨rfl, rfl⟩
  rw [ht.tb, ht.clock, ht.settings, ht.pins, ht.lines]
  dsimp only
  exact ⟨takesBeat_beat s.beatBegun.tb s.settings.holdoverLimit s.settings.localTrim, hclock, hset, hpins⟩

theorem beatFallsDue : Claims.BeatFallsDue := by
  intro s hrest n
  have hn : s.beatOf = n := beatOf_eq s
  refine ⟨fun h => beatDue_idle hrest (hn.trans h), fun h => ⟨s.beatTaken, beatDue_runs hrest (fun e => h (hn.symm.trans e)), ?_⟩⟩
  clear_value n
  subst hn
  obtain ⟨hbeat, hclock, hset, hpins, hlines⟩ := beatTaken_stands s
  refine ⟨hbeat, by rw [sameRackTime, hclock]; exact ⟨rfl, rfl, rfl⟩, hset, hpins, hlines, fun p => ?_⟩
  obtain ⟨⟨hp, hd⟩, he, -⟩ := beatTaken_links s p
  rw [hp, hd, he]
  refine ⟨fun hst => egressBeat_service (s := s.beatBegun) hst, ?_, fun hst hep => ?_, fun hst hep => ?_, fun hst hh hl => ?_⟩
  · rw [delayBeat_estimate]
    exact if_congr (joinEnds_iff (s := s.beatBegun)) rfl rfl
  · rw [portBeat_admits (s := s.beatBegun) (admits_iff.mpr ⟨hst, hep⟩)]; rfl
  · exact portBeat_admitted (s := s.beatBegun) hst hep
  · exact portBeat_held (s := s.beatBegun) hst hh hl

theorem steadyEchoDue : Claims.SteadyEchoDue := by
  intro p s hrest hst n h
  have hn : s.beatOf = n := beatOf_eq s
  refine ⟨s.beatTaken, beatDue_runs hrest (fun e => h (hn.symm.trans e)), ?_⟩
  clear_value n
  subst hn
  rw [(beatTaken_links s p).1.2]
  exact delayBeat_active (s := s.beatBegun) hst

theorem beatEndsLimits : Claims.BeatEndsLimits := by
  intro s hrest n h
  have hn : s.beatOf = n := beatOf_eq s
  refine ⟨s.beatTaken, beatDue_runs hrest (fun e => h (hn.symm.trans e)), fun p => ?_⟩
  clear_value n
  subst hn
  refine ⟨fun hh => ?_, fun hj => ⟨?_, holdsNothing_beatTaken hj, ?_⟩⟩
  · obtain ⟨hact, hheld⟩ := (holdEnds_iff.mp hh).1
    rw [(beatTaken_links s p).1.1, portBeat_holdEnds (s := s.beatBegun) hh]
    exact ⟨hact, hheld, rfl, rfl⟩
  · rw [(beatTaken_links s p).1.1, portBeat_joinEnds (s := s.beatBegun) hj]
    exact (leaves_afterFailure _ _ _).1.1
  · rw [(beatTaken_links s p).1.1, portBeat_joinEnds (s := s.beatBegun) hj, leaves_state]
    rfl

theorem beatCountsHoldover : Claims.BeatCountsHoldover := by
  intro s hrest n h
  have hn : s.beatOf = n := beatOf_eq s
  refine ⟨s.beatTaken, beatDue_runs hrest (fun e => h (hn.symm.trans e)), ?_⟩
  clear_value n
  subst hn
  rw [(tables_beatTaken s).tb]
  rfl

end Sys2Proof.Machine
end

section
namespace Sys2Proof.Machine

/-! ### Staged alterations at a beat (R129) -/

/-- A tap whose staged set has taken effect. -/
def State.tapAltered (u : State) (x : Tap) : Tap :=
  match x.staged with
  | none => x
  | some m => { x with
      settings := { m with lag := if m.lag = 0 then ((u.streams[x.stream]).map (·.depth)).getD 0 else m.lag }
      phase := if m.decimation = x.settings.decimation then x.phase
        else ((u.streams[x.stream]).bind (·.baseline)).map (fun b => b.expected.toNat % m.decimation)
      staged := none }

theorem applyStaged_eq (t : TapIx) (u : State) :
    applyStaged t u = { u with taps := u.taps.set t ((u.taps[t]).map u.tapAltered) } := by
  have hkeep : ∀ o, u.taps[t] = o → u = { u with taps := u.taps.set t o } := fun o ho => by rw [← ho, vset_self]
  cases hx : u.taps[t] with
  | none =>
    rw [Option.map_none, ← hkeep _ hx]
    simp only [applyStaged, hx]
  | some x =>
    cases hm : x.staged with
    | none =>
      rw [Option.map_some, show u.tapAltered x = x by simp only [State.tapAltered, hm], ← hkeep _ hx]
      simp only [applyStaged, hx, hm]
    | some m =>
      simp only [applyStaged, hx, hm, modTap, Option.map_some, State.tapAltered]

theorem tapAltered_tap (u : State) (x : Tap) : (u.tapAltered x).consumer = x.consumer ∧ (u.tapAltered x).tag = x.tag ∧
    (u.tapAltered x).stream = x.stream ∧ (u.tapAltered x).pending = x.pending := by
  unfold State.tapAltered
  split <;> exact ⟨rfl, rfl, rfl, rfl⟩

theorem each_applyStaged (u : State) : ∃ taps, each allTaps applyStaged u = { u with taps := taps } ∧
    ∀ v : TapIx, taps[v] = (u.taps[v]).map u.tapAltered := by
  have hInv : ∀ j ∈ allTaps, ∀ w, (∃ taps, w = { u with taps := taps }) → ∃ taps, applyStaged j w = { u with taps := taps } :=
    fun j _ w ⟨taps, hw⟩ => by subst hw; exact ⟨_, applyStaged_eq j _⟩
  have hrun : ∃ taps, each allTaps applyStaged u = { u with taps := taps } :=
    each_induct (P := fun w => ∃ taps, w = { u with taps := taps }) (fun j hj w => hInv j hj w) u ⟨u.taps, rfl⟩
  obtain ⟨taps, he⟩ := hrun
  refine ⟨taps, he, fun v => ?_⟩
  obtain ⟨w, ⟨taps', hw⟩, hsame, hend⟩ := each_view (List.nodup_finRange 128) (List.mem_finRange v) u
    (fun w => ∃ taps, w = { u with taps := taps }) hInv (fun w => w.taps[v])
    (fun j _ hj w _ => by rw [applyStaged_eq, vget_set, if_neg (Ne.symm hj)]) ⟨u.taps, rfl⟩
  have hread : w.tapAltered = u.tapAltered := by rw [hw]; rfl
  calc taps[v] = (each allTaps applyStaged u).taps[v] := by rw [he]
    _ = (applyStaged v w).taps[v] := hend
    _ = (w.taps[v]).map w.tapAltered := by rw [applyStaged_eq, vget_set, if_pos rfl]
    _ = (u.taps[v]).map u.tapAltered := by rw [hread]; exact congrArg (Option.map _) hsame

/-! ### What concerns one stream -/

/-- A stream and the taps on it. -/
def State.about (u : State) (st : StreamIx) : Option Stream × (TapIx → Option Tap) :=
  (u.streams[st], fun v => (u.taps[v]).filter (fun x => x.stream = st))

theorem about_congr {u w : State} {a : StreamIx} (hs : w.streams[a] = u.streams[a])
    (ht : ∀ v : TapIx, (w.taps[v]).filter (fun x => x.stream = a) = (u.taps[v]).filter (fun x => x.stream = a)) :
    w.about a = u.about a := by
  simp only [State.about, hs, funext ht]

theorem stream_of_about {u w : State} {a : StreamIx} (h : w.about a = u.about a) : w.streams[a] = u.streams[a] :=
  congrArg Prod.fst h

theorem stream_eq_of_about {u : State} {a : StreamIx} {o : Option Stream} {f : TapIx → Option Tap} (h : u.about a = (o, f)) :
    u.streams[a] = o := congrArg Prod.fst h

/-- A close order of an origin is pending on a stream. -/
def State.closes (u : State) (st : StreamIx) (o : Origin) : Prop := ∃ r, u.streams[st] = some r ∧ r.closeBy = some o

/-- A step that moves one stream: others and their taps stand, its taps stand or go; an origin without a close order on it is
told of the move alone. -/
structure Moves (st : StreamIx) (told : Origin → Notices) (u w : State) : Prop where
  tables : Tables u w
  agree : w.TapsAgree
  taps : ∀ v : TapIx, w.taps[v] = u.taps[v] ∨ w.taps[v] = none
  about : ∀ a, a ≠ st → w.about a = u.about a
  posts : ∃ posts, w.posts = u.posts ++ posts ∧ ∀ o, ¬ u.closes st o →
    (w.origin o = u.origin o ∧ ¬ w.closes st o) ∧ OnlyNotices o posts ∧ noticesTo o posts = told o

theorem Moves.refl {u : State} (h : u.TapsAgree) (st : StreamIx) : Moves st (fun _ => []) u u :=
  ⟨.refl u, h, fun _ => .inl rfl, fun _ _ => rfl, [], (List.append_nil _).symm, fun _ hc =>
    ⟨⟨rfl, hc⟩, fun _ hx => (List.not_mem_nil hx).elim, rfl⟩⟩

theorem Moves.trans {st : StreamIx} {f g h : Origin → Notices} {u v w : State} (h1 : Moves st f u v) (h2 : Moves st g v w)
    (hh : ∀ o, f o ++ g o = h o) : Moves st h u w := by
  obtain ⟨p1, he1, ho1⟩ := h1.posts
  obtain ⟨p2, he2, ho2⟩ := h2.posts
  refine ⟨h1.tables.trans h2.tables, h2.agree, fun a => ?_, fun a ha => (h2.about a ha).trans (h1.about a ha), p1 ++ p2, ?_,
    fun o hc => ?_⟩
  · rcases h2.taps a with h | h
    · rw [h]; exact h1.taps a
    · exact .inr h
  · rw [he2, he1, List.append_assoc]
  · obtain ⟨⟨hor1, hc1⟩, hn1, ht1⟩ := ho1 o hc
    obtain ⟨⟨hor2, hc2⟩, hn2, ht2⟩ := ho2 o hc1
    exact ⟨⟨hor2.trans hor1, hc2⟩, onlyNotices_append hn1 hn2, by rw [noticesTo_append, ht1, ht2, hh]⟩

/-- A write to one stream that leaves its taps and its close order. -/
theorem Moves.modStream {st : StreamIx} {u : State} (h : u.TapsAgree) {f : Stream → Stream} (ht : ∀ r, (f r).taps = r.taps)
    (hc : ∀ r, (f r).closeBy = r.closeBy ∨ (f r).closeBy = none) : Moves st (fun _ => []) u (modStream st f u) := by
  refine ⟨tables_modStream .., ?_, fun _ => .inl rfl, fun a ha => about_congr ?_ fun _ => rfl, [], (List.append_nil _).symm,
    fun o ho => ⟨⟨rfl, ?_⟩, fun _ hx => (List.not_mem_nil hx).elim, rfl⟩⟩
  · intro a r hr
    simp only [Machine.modStream, vget_set] at hr ⊢
    by_cases ha : a = st
    · subst ha
      rw [if_pos rfl] at hr
      obtain ⟨r0, hr0, rfl⟩ := Option.map_eq_some_iff.mp hr
      rw [ht]
      exact h a r0 hr0
    · rw [if_neg ha] at hr
      exact h a r hr
  · simp only [Machine.modStream, vget_set, if_neg ha]
  · rintro ⟨r, hr, hcl⟩
    simp only [Machine.modStream, vget_set, if_true] at hr
    obtain ⟨r0, hr0, rfl⟩ := Option.map_eq_some_iff.mp hr
    rcases hc r0 with h' | h'
    · exact ho ⟨r0, hr0, h' ▸ hcl⟩
    · rw [h'] at hcl; cases hcl

end Sys2Proof.Machine
end

section
namespace Sys2Proof.Machine

/-! ### The end of a drain, for one stream (R98, R99) -/

/-- An answer touches one origin and tells no other. -/
theorem answerAs_spec (item : PostItem) (o : Origin) (r : ResultCode) (b : List Byte) (s : State) :
    ∃ origins service posts, answerAs item o r b s = { s with origins := origins, service := service, posts := s.posts ++ posts } ∧
      ∀ o', o' ≠ o → (answerAs item o r b s).origin o' = s.origin o' ∧ ∀ x ∈ posts, x.dest ≠ o' := by
  unfold answerAs
  split
  · rename_i i c _
    have ho : ∀ f o', o' ≠ o → ((modOrigin o f s) |> post o item).origin o' = s.origin o' := fun f o' ho' => by
      have := modOrigin_origin o o' f s
      rw [if_neg ho'] at this
      exact this
    have hd : ∀ o', o' ≠ o → ∀ x ∈ ([⟨o, item⟩] : List Post), x.dest ≠ o' := fun o' ho' x hx => by
      rw [List.mem_singleton.mp hx]; exact ho'.symm
    cases o with
    | service => exact ⟨_, _, _, rfl, fun o' ho' => ⟨ho _ o' ho', hd o' ho'⟩⟩
    | port p => exact ⟨_, _, _, rfl, fun o' ho' => ⟨ho _ o' ho', hd o' ho'⟩⟩
  · exact ⟨s.origins, s.service, [], by rw [List.append_nil], fun _ _ => ⟨rfl, fun x hx => (List.not_mem_nil hx).elim⟩⟩

/-- What the end of its drain tells of a stream. -/
def State.endNotices (u : State) (st : StreamIx) : Origin → Notices
  | .service => []
  | .port c => u.tapNotices .streamEnded st (((u.streams[st]).map (·.taps)).getD []) c

/-- All that the end of a drain does. -/
theorem endDrain_spec {u : State} (h : u.TapsAgree) {st : StreamIx} {r : Stream} (hr : u.streams[st] = some r)
    (d : PostItem) : ∃ fifo taps store origins service posts, endDrain d st u = { u with
      streams := u.streams.set st (some { r with fifo := fifo, taps := [], closeBy := none, drainDeadline := none })
      taps := taps, store := store, origins := origins, service := service, posts := u.posts ++ posts } ∧
      (r.fifo = [] → fifo = []) ∧ (∀ v : TapIx, taps[v] = if v ∈ r.taps then none else u.taps[v]) ∧
      ∀ o, r.closeBy ≠ some o → (endDrain d st u).origin o = u.origin o ∧ OnlyNotices o posts ∧
        noticesTo o posts = u.endNotices st o := by
  obtain ⟨hn, hm⟩ := h st r hr
  obtain ⟨fifo, taps, store, hf, he, ht⟩ := each_endTaps hn (fun v hv => (hm v).mp hv) hr
  have hnil : r.taps.filter (· ∉ r.taps) = [] := List.filter_eq_nil_iff.mpr fun v hv => by simpa using hv
  have htold : ∀ o, noticesTo o (u.tapPosts .streamEnded st r.taps) = u.endNotices st o := fun o => by
    cases o with
    | service => exact noticesTo_tapPosts_service ..
    | port c => rw [noticesTo_tapPosts, State.endNotices, hr]; rfl
  rw [hnil] at he
  cases hc : r.closeBy with
  | none =>
    simp only [endDrain, hr, hc, he]
    refine ⟨fifo, taps, store, u.origins, u.service, u.tapPosts .streamEnded st r.taps, ?_, hf, ht, fun o _ =>
      ⟨rfl, onlyNotices_tapPosts o u _ _ _, htold o⟩⟩
    simp only [modStream, vget_set, if_true, Option.map_some, Vector.set_set]
  | some o =>
    simp only [endDrain, hr, hc, he]
    obtain ⟨origins, service, posts, ha, ho⟩ := answerAs_spec d o .done [] { u with
      streams := u.streams.set st (some { r with fifo := fifo, taps := [], closeBy := some o })
      taps := taps, store := store, posts := u.posts ++ u.tapPosts .streamEnded st r.taps }
    refine ⟨fifo, taps, store, origins, service, u.tapPosts .streamEnded st r.taps ++ posts, ?_, hf, ht, fun o' ho' => ?_⟩
    · rw [ha]
      simp only [modStream, vget_set, if_true, Option.map_some, Vector.set_set, List.append_assoc]
    · have hne : o' ≠ o := fun e => ho' (by rw [e])
      obtain ⟨hor, hd⟩ := ho o' hne
      refine ⟨hor, onlyNotices_append (onlyNotices_tapPosts o' u _ _ _) fun x hx hxd => absurd hxd (hd x hx), ?_⟩
      have hnone : noticesTo o' posts = [] := List.filterMap_eq_nil_iff.mpr fun x hx => by
        split
        · rw [if_neg (hd x hx)]
        · rfl
      rw [noticesTo_append, htold, hnone, List.append_nil]

theorem moves_endDrain {u : State} (h : u.TapsAgree) {st : StreamIx} {r : Stream} (hr : u.streams[st] = some r) (d : PostItem) :
    Moves st (u.endNotices st) u (endDrain d st u) ∧ ∃ fifo, (r.fifo = [] → fifo = []) ∧ (endDrain d st u).about st =
      (some { r with fifo := fifo, taps := [], closeBy := none, drainDeadline := none }, fun _ => none) := by
  obtain ⟨fifo, taps, store, origins, service, posts, he, hf, ht, ho⟩ := endDrain_spec h hr d
  obtain ⟨hn, hm⟩ := h st r hr
  have htable := tables_endDrain d st u
  generalize endDrain d st u = w at he ho htable ⊢
  have hgone : ∀ (v : TapIx) x, u.taps[v] = some x → (v ∈ r.taps ↔ x.stream = st) := fun v x hx => by
    rw [hm v, hx]; simp
  have hown : ∀ a : StreamIx, w.streams[a] = if a = st then
      some { r with fifo := fifo, taps := [], closeBy := none, drainDeadline := none } else u.streams[a] := fun a => by
    rw [he, vget_set]
  have htaps : ∀ v : TapIx, w.taps[v] = if v ∈ r.taps then none else u.taps[v] := fun v => by rw [← ht v, he]
  have hfilter : ∀ (a : StreamIx) (v : TapIx), (w.taps[v]).filter (fun x => x.stream = a) =
      if a = st then none else (u.taps[v]).filter (fun x => x.stream = a) := fun a v => by
    rw [htaps]
    cases hx : u.taps[v] with
    | none => simp
    | some x =>
      by_cases hv : v ∈ r.taps
      · rw [if_pos hv]
        have hxs := (hgone v x hx).mp hv
        by_cases ha : a = st
        · rw [if_pos ha]; rfl
        · rw [if_neg ha, Option.filter_some, if_neg (by simpa [hxs] using Ne.symm ha)]; rfl
      · rw [if_neg hv]
        by_cases ha : a = st
        · subst ha
          rw [if_pos rfl, Option.filter_some, if_neg (by simpa using mt (hgone v x hx).mpr hv)]
        · rw [if_neg ha]
  refine ⟨⟨htable, ?_, fun v => ?_, fun a ha => about_congr ?_ fun v => ?_, posts, by rw [he], fun o hc => ?_⟩, fifo, hf, ?_⟩
  · intro a r' hr'
    rw [hown] at hr'
    by_cases ha : a = st
    · rw [if_pos ha] at hr'
      obtain rfl := Option.some.inj hr'
      refine ⟨List.nodup_nil, fun v => ⟨fun hv => (List.not_mem_nil hv).elim, ?_⟩⟩
      rintro ⟨x, hx, hxs⟩
      have := hfilter a v
      rw [if_pos ha, hx, Option.filter_some, if_pos (by simpa using hxs)] at this
      cases this
    · rw [if_neg ha] at hr'
      obtain ⟨hn', hm'⟩ := h a r' hr'
      refine ⟨hn', fun v => (hm' v).trans (exists_congr fun x => and_congr_left fun hxs => ?_)⟩
      have := hfilter a v
      rw [if_neg ha] at this
      constructor
      · intro hx
        rw [hx, Option.filter_some, if_pos (by simpa using hxs)] at this
        exact (Option.filter_eq_some_iff.mp this).1
      · intro hx
        rw [hx, Option.filter_some, if_pos (by simpa using hxs)] at this
        exact (Option.filter_eq_some_iff.mp this.symm).1
  · rw [htaps]
    split
    · exact .inr rfl
    · exact .inl rfl
  · rw [hown, if_neg ha]
  · rw [hfilter, if_neg ha]
  · have hcl : r.closeBy ≠ some o := fun e => hc ⟨r, hr, e⟩
    obtain ⟨hor, hnot, htold⟩ := ho o hcl
    refine ⟨⟨hor, ?_⟩, hnot, htold⟩
    rintro ⟨r', hr', hcl'⟩
    rw [hown, if_pos rfl] at hr'
    obtain rfl := Option.some.inj hr'
    cases hcl'
  · rw [State.about, hown, if_pos rfl]
    exact congrArg _ (funext fun v => by rw [hfilter, if_pos rfl])

end Sys2Proof.Machine
end

section
namespace Sys2Proof.Machine

/-! ### The steps of a beat for one stream (R87, R98, R99, R101, R116) -/

/-- A stream whose start beat or orphan deadline has been judged. -/
def Stream.atBeat (n : Beat) (limit : Nat) (r : Stream) : Stream :=
  if r.state = .opening ∧ r.startBeat = n then { r with state := .flowing }
  else if r.state = .orphaned ∧ r.orphanDeadline = some n then { r with
    state := .draining, producer := none, orphanDeadline := none, drainDeadline := some (n + BitVec.ofNat 32 limit) }
  else r

theorem atBeat_keeps (n : Beat) (limit : Nat) (r : Stream) : (r.atBeat n limit).taps = r.taps ∧
    (r.atBeat n limit).closeBy = r.closeBy ∧ (r.atBeat n limit).fifo = r.fifo := by
  unfold Stream.atBeat
  split
  · exact ⟨rfl, rfl, rfl⟩
  · split <;> exact ⟨rfl, rfl, rfl⟩

theorem start_orphan_eq (st : StreamIx) (u : State) : expireOrphan st (startStream st u) =
    modStream st (Stream.atBeat u.tb.beat u.settings.drainLimit) u := by
  cases hr : u.streams[st] with
  | none => simp only [expireOrphan, startStream, modStream, hr, Option.map_none, vget_set, if_true]
  | some r =>
    by_cases h1 : r.state = .opening ∧ r.startBeat = u.tb.beat
    · simp only [expireOrphan, startStream, modStream, hr, Option.map_some, vget_set, if_true, if_pos h1, Stream.atBeat,
        reduceCtorEq, false_and, if_false]
    · by_cases h2 : r.state = .orphaned ∧ r.orphanDeadline = some u.tb.beat
      · simp only [expireOrphan, startStream, modStream, hr, Option.map_some, vget_set, if_true, Stream.atBeat,
          enterDraining, Vector.set_set, h2, and_self, reduceCtorEq, if_false, false_and]
      · simp only [expireOrphan, startStream, modStream, hr, Option.map_some, vget_set, if_true, if_neg h1, Stream.atBeat,
          if_neg h2]

/-- The drain deadline of a stream is the beat, once its start and its orphan deadline have been judged. -/
def State.drainEnds (u : State) (st : StreamIx) : Bool := (u.streams[st]).any (fun r =>
  decide ((r.atBeat u.tb.beat u.settings.drainLimit).state = .draining ∧
    (r.atBeat u.tb.beat u.settings.drainLimit).drainDeadline = some u.tb.beat))

theorem beatStream_eq (st : StreamIx) (u : State) : beatStream st u =
    if u.drainEnds st then endDrain .drainReply st (modStream st (Stream.atBeat u.tb.beat u.settings.drainLimit) u)
    else modStream st (Stream.atBeat u.tb.beat u.settings.drainLimit) u := by
  have h : beatStream st u = expireDrain st (expireOrphan st (startStream st u)) := rfl
  rw [h, start_orphan_eq]
  cases hr : u.streams[st] with
  | none =>
    simp only [expireDrain, modStream, vget_set, if_true, hr, Option.map_none, State.drainEnds, Option.any_none,
      Bool.false_eq_true, if_false]
  | some r =>
    simp only [expireDrain, modStream, vget_set, if_true, hr, Option.map_some, State.drainEnds, Option.any_some,
      decide_eq_true_eq]

/-- What a beat tells of a stream itself. -/
def State.beatEnds (u : State) (st : StreamIx) (o : Origin) : Notices := if u.drainEnds st then u.endNotices st o else []

theorem moves_atBeat {u : State} (h : u.TapsAgree) (st : StreamIx) (n : Beat) (limit : Nat) :
    Moves st (fun _ => []) u (modStream st (Stream.atBeat n limit) u) :=
  Moves.modStream h (fun r => (atBeat_keeps n limit r).1) fun r => .inl (atBeat_keeps n limit r).2.1

theorem endNotices_modStream {st : StreamIx} {u : State} {f : Stream → Stream} (ht : ∀ r, (f r).taps = r.taps) :
    (modStream st f u).endNotices st = u.endNotices st := by
  funext o
  cases o with
  | service => rfl
  | port c =>
    simp only [State.endNotices, modStream, vget_set, if_true]
    cases u.streams[st] with
    | none => rfl
    | some r => simp only [Option.map_some, ht]; rfl

theorem moves_beatStream {u : State} (h : u.TapsAgree) (st : StreamIx) : Moves st (u.beatEnds st) u (beatStream st u) := by
  have hmod := moves_atBeat h st u.tb.beat u.settings.drainLimit
  rw [beatStream_eq]
  cases hd : u.drainEnds st with
  | false =>
    rw [if_neg (by simp)]
    have : u.beatEnds st = fun _ => [] := funext fun o => by rw [State.beatEnds, hd, if_neg (by simp)]
    rw [this]; exact hmod
  | true =>
    rw [if_pos rfl]
    obtain ⟨r, hr, -⟩ := (Option.any_eq_true _ _).mp hd
    have hr' : (modStream st (Stream.atBeat u.tb.beat u.settings.drainLimit) u).streams[st] =
        some (r.atBeat u.tb.beat u.settings.drainLimit) := by simp only [modStream, vget_set, if_true, hr, Option.map_some]
    refine hmod.trans (moves_endDrain hmod.agree hr' .drainReply).1 fun o => ?_
    rw [endNotices_modStream fun r => (atBeat_keeps _ _ r).1, State.beatEnds, hd, if_pos rfl, List.nil_append]

/-! ### A drain that settles, and ease -/

/-- The record of a stream without blocks is freed. -/
theorem moves_freeStream {u : State} (h : u.TapsAgree) {st : StreamIx} (hu : u.uOf st = 0) :
    Moves st (fun _ => []) u (freeStream st u) ∧ (freeStream st u).about st = (none, (u.about st).2) := by
  have hfree : ∃ drainSets, freeStream st u = { u with streams := u.streams.set st none, drainSets := drainSets } := by
    unfold freeStream
    rw [if_pos hu]
    exact each_induct (P := fun w => ∃ drainSets, w = { u with streams := u.streams.set st none, drainSets := drainSets })
      (fun p _ w ⟨_, hw⟩ => ⟨_, by rw [hw]; rfl⟩) _ ⟨u.drainSets, rfl⟩
  have htable := tables_freeStream st u
  obtain ⟨drainSets, he⟩ := hfree
  generalize freeStream st u = w at he htable ⊢
  have hown : ∀ a : StreamIx, w.streams[a] = if a = st then none else u.streams[a] := fun a => by rw [he, vget_set]
  have htaps : w.taps = u.taps := by rw [he]
  refine ⟨⟨htable, fun a r hr => ?_, fun v => .inl (by rw [htaps]), fun a ha => about_congr (by rw [hown, if_neg ha])
    (fun v => by rw [htaps]), [], by rw [he, List.append_nil], fun o hc => ⟨⟨by rw [he]; cases o <;> rfl, ?_⟩,
      fun _ hx => (List.not_mem_nil hx).elim, rfl⟩⟩, ?_⟩
  · rw [hown] at hr
    by_cases ha : a = st
    · rw [if_pos ha] at hr; cases hr
    · rw [if_neg ha] at hr
      rw [htaps]
      exact h a r hr
  · rintro ⟨r, hr, -⟩
    rw [hown, if_pos rfl] at hr; cases hr
  · rw [State.about, hown, if_pos rfl, htaps]; rfl

/-- What the settling of a drain tells of a stream. -/
def State.settleEnds (u : State) (st : StreamIx) (o : Origin) : Notices :=
  if u.isEmptied st && (u.streams[st]).any (fun r => r.drainDeadline.isSome) then u.endNotices st o else []

theorem isEmptied_iff {u : State} {st : StreamIx} {r : Stream} (hr : u.streams[st] = some r) :
    u.isEmptied st = true ↔ r.state = .draining ∧ r.fifo = [] := by
  simp only [State.isEmptied, hr, Bool.and_eq_true, beq_iff_eq, List.isEmpty_iff]

theorem moves_settleDrain {u : State} (h : u.TapsAgree) (st : StreamIx) (d : PostItem) :
    Moves st (u.settleEnds st) u (settleDrain d st u) ∧ (u.isEmptied st = true →
      (settleDrain d st u).streams[st] = none ∧ (∀ r, u.streams[st] = some r → (r.drainDeadline.isSome ∨ r.taps = []) →
        ((settleDrain d st u).about st).2 = fun _ => none)) := by
  cases hem : u.isEmptied st with
  | false =>
    rw [settleDrain_of_not d hem]
    have : u.settleEnds st = fun _ => [] := funext fun o => by rw [State.settleEnds, hem]; rfl
    rw [this]
    exact ⟨.refl h st, fun e => by cases e⟩
  | true =>
    cases hr : u.streams[st] with
    | none => simp only [State.isEmptied, hr] at hem; cases hem
    | some r =>
      obtain ⟨hdr, hf⟩ := (isEmptied_iff hr).mp hem
      cases hd : r.drainDeadline.isSome with
      | true =>
        have hset : settleDrain d st u = freeStream st (endDrain d st u) := by
          simp only [settleDrain, hr, hdr, hf, and_self, if_true, hd]
        obtain ⟨hmove, fifo, hnil, habout⟩ := moves_endDrain h hr d
        have hu : (endDrain d st u).uOf st = 0 := by
          have : (endDrain d st u).streams[st] = _ := congrArg Prod.fst habout
          rw [State.uOf, this, hnil hf]; rfl
        obtain ⟨hfree, hgone⟩ := moves_freeStream hmove.agree hu
        rw [hset]
        refine ⟨hmove.trans hfree fun o => ?_, fun _ => ⟨congrArg Prod.fst hgone, fun _ _ _ => ?_⟩⟩
        · rw [State.settleEnds, hem, hr, Option.any_some, hd]; simp
        · rw [hgone, habout]
      | false =>
        have hset : settleDrain d st u = freeStream st u := by
          simp only [settleDrain, hr, hdr, hf, and_self, if_true, hd, Bool.false_eq_true, if_false]
        have hu : u.uOf st = 0 := by rw [State.uOf, hr, Option.map_some, Stream.u, hf]; rfl
        obtain ⟨hfree, hgone⟩ := moves_freeStream h hu
        have htold : u.settleEnds st = fun _ => [] := funext fun o => by
          rw [State.settleEnds, hr, Option.any_some, hd, Bool.and_false, if_neg (by simp)]
        rw [hset, htold]
        refine ⟨hfree, fun _ => ⟨congrArg Prod.fst hgone, fun r' hr' ht => ?_⟩⟩
        obtain rfl := Option.some.inj hr'
        have ht : r.taps = [] := ht.resolve_left (by rw [hd]; simp)
        rw [hgone]
        refine funext fun v => ?_
        rw [State.about, Option.filter_eq_none_iff]
        intro x hx hxs
        have := ((h st r hr).2 v).mpr ⟨x, hx, by simpa using hxs⟩
        rw [ht] at this; cases this

/-- What a judgement of ease tells. -/
def State.easeTold (u : State) (st : StreamIx) (o : Origin) : Notices :=
  ((u.streams[st]).map (fun r => if r.producer.map Origin.port = some o then r.easeNotices st else [])).getD []

theorem moves_judgeEase {u : State} (h : u.TapsAgree) (st : StreamIx) : Moves st (u.easeTold st) u (judgeEase st u) ∧
    (judgeEase st u).about st = ((u.streams[st]).map (fun r => { r with eased := r.judged }), (u.about st).2) := by
  cases hr : u.streams[st] with
  | none =>
    have hidle : judgeEase st u = u := by simp only [judgeEase, hr]
    have htold : u.easeTold st = fun _ => [] := funext fun o => by rw [State.easeTold, hr]; rfl
    rw [hidle, htold]
    exact ⟨.refl h st, by rw [State.about, hr]; rfl⟩
  | some r =>
    have hmod := Moves.modStream h (st := st) (f := fun y => { y with eased := r.judged }) (fun _ => rfl) fun _ => .inl rfl
    have hset : modStream st (fun y => { y with eased := r.judged }) u = { u with
        streams := u.streams.set st (some { r with eased := r.judged }) } := by simp only [modStream, hr, Option.map_some]
    rw [hset] at hmod
    rw [judgeEase_eq hr]
    refine ⟨⟨?_, hmod.agree, hmod.taps, hmod.about, _, rfl, fun o hc => ?_⟩, ?_⟩
    · exact hmod.tables.trans ⟨_, _, _, _, _, _, _, _, rfl⟩
    · obtain ⟨_, -, ho⟩ := hmod.posts
      obtain ⟨hor, -⟩ := ho o hc
      obtain ⟨honly, htold⟩ := toProducer_noticesTo r (r.easeNotices st) o
      exact ⟨hor, honly, by rw [htold, State.easeTold, hr]; rfl⟩
    · simp only [State.about, vget_set, if_true, Option.map_some]

end Sys2Proof.Machine
end

section
namespace Sys2Proof.Machine

/-! ### A run of such steps over all streams -/

/-- What a run of moves of single streams has brought, once a part of the streams has moved. -/
structure Moved (f : StreamIx → State → State) (told : StreamIx → State → Origin → Notices) (a : State)
    (l : List StreamIx) (u : State) : Prop where
  tables : Tables a u
  agree : u.TapsAgree
  taps : ∀ v : TapIx, u.taps[v] = a.taps[v] ∨ u.taps[v] = none
  still : ∀ st, st ∉ l → u.about st = a.about st
  about : ∀ st ∈ l, ∃ w, Tables a w ∧ w.TapsAgree ∧ w.about st = a.about st ∧ u.about st = (f st w).about st
  posts : ∃ posts, u.posts = a.posts ++ posts ∧ ∀ o, (∀ st, ¬ a.closes st o) →
    (u.origin o = a.origin o ∧ ∀ st, ¬ u.closes st o) ∧ OnlyNotices o posts ∧
      noticesTo o posts = l.flatMap (fun st => told st a o)

theorem closes_congr {u w : State} {st : StreamIx} (h : w.about st = u.about st) (o : Origin) : w.closes st o ↔ u.closes st o := by
  rw [State.closes, State.closes, stream_of_about h]

theorem each_moves {f : StreamIx → State → State} {told : StreamIx → State → Origin → Notices} {a : State}
    (hagree : a.TapsAgree) (hf : ∀ st u, Tables a u → u.TapsAgree → Moves st (told st u) u (f st u))
    (htold : ∀ st u, Tables a u → u.TapsAgree → u.about st = a.about st → told st u = told st a) :
    Moved f told a allStreams (each allStreams f a) := by
  refine each_taking (Inv := Moved f told a) ⟨.refl a, hagree, fun _ => .inl rfl, fun _ _ => rfl,
    fun _ h => (List.not_mem_nil h).elim, [], (List.append_nil _).symm, fun _ hc => ⟨⟨rfl, hc⟩, fun _ hx =>
      (List.not_mem_nil hx).elim, rfl⟩⟩ fun pre i rest hall u hu => ?_
  have hi : i ∉ pre := fun hm => (List.nodup_middle.mp (hall ▸ nodup_allStreams)).notMem (List.mem_append_left _ hm)
  have hm := hf i u hu.tables hu.agree
  rw [htold i u hu.tables hu.agree (hu.still i hi)] at hm
  obtain ⟨posts, hposts, ho⟩ := hu.posts
  obtain ⟨posts', hposts', ho'⟩ := hm.posts
  refine ⟨hu.tables.trans hm.tables, hm.agree, fun v => ?_, fun st hst => ?_, fun st hst => ?_, posts ++ posts', ?_, fun o hc => ?_⟩
  · rcases hm.taps v with h | h
    · rw [h]; exact hu.taps v
    · exact .inr h
  · obtain ⟨h1, h2⟩ := not_or.mp (mt List.mem_append.mpr hst)
    exact (hm.about st fun e => h2 (List.mem_singleton.mpr e)).trans (hu.still st h1)
  · by_cases he : st = i
    · subst he
      exact ⟨u, hu.tables, hu.agree, hu.still st hi, rfl⟩
    · have hpre : st ∈ pre := (List.mem_append.mp hst).resolve_right fun h => he (List.mem_singleton.mp h)
      obtain ⟨w, h1, h2, h3, h4⟩ := hu.about st hpre
      exact ⟨w, h1, h2, h3, (hm.about st he).trans h4⟩
  · rw [hposts', hposts, List.append_assoc]
  · obtain ⟨⟨hor, hcl⟩, honly, hn⟩ := ho o hc
    obtain ⟨⟨hor', hcl'⟩, honly', hn'⟩ := ho' o (hcl i)
    refine ⟨⟨hor'.trans hor, fun st => ?_⟩, onlyNotices_append honly honly', ?_⟩
    · by_cases he : st = i
      · subst he; exact hcl'
      · exact mt (closes_congr (hm.about st he) o).mp (hcl st)
    · rw [noticesTo_append, hn, hn', List.flatMap_append, List.flatMap_singleton]

/-! ### What is told of a stream depends on what concerns it -/

theorem endNotices_of_taps {u w : State} {st : StreamIx} (hu : u.TapsAgree)
    (hs : (w.streams[st]).map (·.taps) = (u.streams[st]).map (·.taps)) (h : (w.about st).2 = (u.about st).2) :
    w.endNotices st = u.endNotices st := by
  funext o
  cases o with
  | service => rfl
  | port c =>
    simp only [State.endNotices, hs]
    cases hr : u.streams[st] with
    | none => rfl
    | some r =>
      refine List.filterMap_congr fun v hv => ?_
      obtain ⟨x, hx, hxs⟩ := ((hu st r hr).2 v).mp hv
      have hw := congrFun h v
      simp only [State.about] at hw
      rw [hx, Option.filter_some, if_pos (by simpa using hxs)] at hw
      rw [hx, (Option.filter_eq_some_iff.mp hw).1]

theorem endNotices_congr {u w : State} {st : StreamIx} (hu : u.TapsAgree) (h : w.about st = u.about st) :
    w.endNotices st = u.endNotices st :=
  endNotices_of_taps hu (by rw [stream_of_about h]) (congrArg Prod.snd h)

theorem isEmptied_congr {u w : State} {st : StreamIx} (h : w.about st = u.about st) : w.isEmptied st = u.isEmptied st := by
  rw [State.isEmptied, State.isEmptied, stream_of_about h]

theorem uOf_congr {u w : State} {st : StreamIx} (h : w.about st = u.about st) : w.uOf st = u.uOf st := by
  rw [State.uOf, State.uOf, stream_of_about h]

theorem drainEnds_congr {u w : State} {st : StreamIx} (ht : Tables u w) (h : w.about st = u.about st) :
    w.drainEnds st = u.drainEnds st := by
  rw [State.drainEnds, State.drainEnds, ht.tb, ht.settings, stream_of_about h]

theorem settleEnds_congr {u w : State} {st : StreamIx} (hu : u.TapsAgree) (h : w.about st = u.about st) :
    w.settleEnds st = u.settleEnds st := by
  funext o
  rw [State.settleEnds, State.settleEnds, isEmptied_congr h, endNotices_congr hu h,
    stream_of_about h]

theorem beatEnds_congr {u w : State} {st : StreamIx} (ht : Tables u w) (hu : u.TapsAgree) (h : w.about st = u.about st) :
    w.beatEnds st = u.beatEnds st := by
  funext o
  rw [State.beatEnds, State.beatEnds, drainEnds_congr ht h, endNotices_congr hu h]

theorem easeTold_congr {u w : State} {st : StreamIx} (h : w.about st = u.about st) : w.easeTold st = u.easeTold st := by
  funext o
  rw [State.easeTold, State.easeTold, stream_of_about h]

/-! ### The stages of a beat that move streams -/

section
variable {a : State} (h : a.TapsAgree)
include h

theorem moved_beatStreams : Moved beatStream (fun st u => u.beatEnds st) a allStreams (each allStreams beatStream a) :=
  each_moves h (fun st _ _ hu => moves_beatStream hu st) fun _ _ ht _ hab => beatEnds_congr ht h hab

/-- The settling of a stream, unless it was without blocks before the event. -/
def settleStep (s0 : State) (d : PostItem) (st : StreamIx) (u : State) : State :=
  if s0.isEmptied st then u else settleDrain d st u

def State.settleTold (s0 u : State) (st : StreamIx) (o : Origin) : Notices :=
  if s0.isEmptied st then [] else u.settleEnds st o

theorem moved_settleDrains (s0 : State) : ∃ d, Moved (settleStep s0 d) (fun st u => s0.settleTold u st) a allStreams
    (settleDrains s0 a) := by
  refine ⟨if s0.tornDown a then .reply else .drainReply, each_moves h (fun st u _ hu => ?_) fun st u _ _ hab => ?_⟩
  · unfold settleStep State.settleTold
    by_cases h0 : s0.isEmptied st = true
    · simp only [h0, if_true]
      exact .refl hu st
    · simp only [h0]
      exact (moves_settleDrain hu st _).1
  · funext o
    rw [State.settleTold, State.settleTold, settleEnds_congr h hab]

/-- The judgement of a stream's ease, where its blocks have changed. -/
def easeStep (s0 : State) (st : StreamIx) (u : State) : State := if s0.uOf st = u.uOf st then u else judgeEase st u

def State.easeJudged (s0 u : State) (st : StreamIx) (o : Origin) : Notices :=
  if s0.uOf st = u.uOf st then [] else u.easeTold st o

theorem moved_judgeAllEase (s0 : State) : Moved (easeStep s0) (fun st u => s0.easeJudged u st) a allStreams
    (judgeAllEase s0 a) := by
  refine each_moves h (fun st u _ hu => ?_) fun st u _ _ hab => ?_
  · unfold easeStep State.easeJudged
    by_cases h0 : s0.uOf st = u.uOf st
    · simp only [h0, if_true]
      exact .refl hu st
    · simp only [h0, if_false]
      exact (moves_judgeEase hu st).1
  · funext o
    rw [State.easeJudged, State.easeJudged, easeTold_congr hab, uOf_congr hab]

end

end Sys2Proof.Machine
end

section
namespace Sys2Proof.Machine

/-! ### A stream from the ports to the end of the beat -/

section
variable {s : State} {st : StreamIx}

/-- What stands of a stream at the beat: a failed attempt takes its close order with it. -/
def State.standing (s : State) (r : Stream) : Stream := { r with closeBy := r.closeBy.filter (s.beatBegun.outlives allPorts) }

theorem beatSheds_iff : s.beatSheds st ↔ ∃ p ∈ allPorts, s.beatBegun.portSheds p (fun x => x.stream = st) := by
  constructor
  · rintro ⟨v, x, hx, hs, hp, hh⟩
    exact ⟨x.consumer, mem_allPorts _, hh, v, x, hx, rfl, hs, hp⟩
  · rintro ⟨p, -, hh, v, x, hx, rfl, hs, hp⟩
    exact ⟨v, x, hx, hs, hp, hh⟩

/-- A tap once ports and staged sets have taken the beat. -/
def State.tapAfter (s : State) (x : Tap) : Tap := s.afterPorts.tapAltered (s.beatBegun.tapTaken allPorts x)

theorem tapAfter_tap (x : Tap) : (s.tapAfter x).consumer = x.consumer ∧ (s.tapAfter x).tag = x.tag ∧
    (s.tapAfter x).stream = x.stream := by
  obtain ⟨h1, h2, h3, -⟩ := tapAltered_tap s.afterPorts (s.beatBegun.tapTaken allPorts x)
  obtain ⟨g1, g2, g3⟩ := tapTaken_tap s.beatBegun allPorts x
  exact ⟨h1.trans g1, h2.trans g2, h3.trans g3⟩

theorem afterTaps_taps (v : TapIx) : s.afterTaps.taps[v] = (s.taps[v]).map s.tapAfter := by
  obtain ⟨taps, he, ht⟩ := each_applyStaged s.afterPorts
  obtain ⟨_, _, taps', _, hports, htaps, -⟩ := portsTaken_all s.beatBegun
  have hp : s.afterPorts.taps[v] = (s.taps[v]).map (s.beatBegun.tapTaken allPorts) := by
    rw [State.afterPorts, hports]; exact htaps v
  rw [State.afterTaps, he]
  refine (ht v).trans ?_
  rw [hp, Option.map_map]
  rfl

theorem afterTaps_eq : s.afterTaps.streams = s.afterPorts.streams ∧ s.afterTaps.tb = s.beatBegun.tb ∧
    s.afterTaps.settings = s.settings ∧ s.afterTaps.posts = s.afterPorts.posts ∧ s.afterTaps.origins = s.afterPorts.origins ∧
    s.afterTaps.service = s.afterPorts.service := by
  obtain ⟨taps, he, -⟩ := each_applyStaged s.afterPorts
  obtain ⟨htb, hset, -⟩ := afterPorts_tb s
  rw [State.afterTaps, he]
  dsimp only
  exact ⟨rfl, htb, hset, rfl, rfl, rfl⟩

/-- A stream once ports and staged sets have taken the beat: taken up or not, with its blocks unless some are shed. -/
theorem afterTaps_stream (st : StreamIx) : ∃ fifo, s.afterTaps.streams[st] = (s.streams[st]).map (fun r =>
      { s.standing (r.adoptedBy (s.adopter s.beatOf r)) with fifo := fifo }) ∧
    (¬ s.beatSheds st → ∀ r, s.streams[st] = some r → fifo = r.fifo) := by
  obtain ⟨_, _, _, _, hports, -, -, hstreams⟩ := portsTaken_all s.beatBegun
  obtain ⟨fifo, hst, hf⟩ := hstreams st
  refine ⟨fifo, ?_, fun hn => hf fun p hp => fun h => hn (beatSheds_iff.mpr ⟨p, hp, h⟩)⟩
  rw [afterTaps_eq.1, State.afterPorts, hports]
  refine hst.trans (congrArg (Option.map · _) (funext fun r => ?_))
  rw [streamTaken_eq, State.standing]
  cases hr : s.adopter s.beatOf r with
  | none => rw [show s.beatBegun.adopterIn allPorts r = none from hr]; rfl
  | some p => rw [show s.beatBegun.adopterIn allPorts r = some p from hr]; rfl

theorem adoptedBy_taps (r : Stream) (o : Option PortIx) : (r.adoptedBy o).taps = r.taps := by
  cases o <;> rfl

theorem afterTaps_agree (h : s.TapsAgree) : s.afterTaps.TapsAgree := by
  intro a r' hr'
  obtain ⟨fifo, hst, -⟩ := afterTaps_stream (s := s) a
  obtain ⟨r, hr, rfl⟩ := Option.map_eq_some_iff.mp (hst.symm.trans hr')
  obtain ⟨hn, hm⟩ := h a r hr
  have ht : ({ s.standing (r.adoptedBy (s.adopter s.beatOf r)) with fifo := fifo } : Stream).taps = r.taps :=
    adoptedBy_taps r _
  rw [ht]
  refine ⟨hn, fun v => (hm v).trans ?_⟩
  rw [afterTaps_taps]
  cases s.taps[v] with
  | none => simp
  | some x => simp [(tapAfter_tap (s := s) x).2.2]

theorem flush_keeps (u : State) : (flush u).streams = u.streams ∧ (flush u).taps = u.taps ∧ (flush u).restarting = u.restarting :=
  ⟨flush_frame State.streams (fun _ => by rfl) u, flush_frame State.taps (fun _ => by rfl) u,
    flush_frame State.restarting (fun _ => by rfl) u⟩

theorem queueFarewells_keeps (s0 u : State) : (queueFarewells s0 u).streams = u.streams ∧ (queueFarewells s0 u).taps = u.taps := by
  have hone : ∀ p w, (queueFarewell p w).streams = w.streams ∧ (queueFarewell p w).taps = w.taps := fun p w => by
    unfold queueFarewell
    split <;> exact ⟨rfl, rfl⟩
  refine each_induct (P := fun w => w.streams = u.streams ∧ w.taps = u.taps) (fun p _ w hw => ?_) u ⟨rfl, rfl⟩
  split
  · exact hw
  · exact ⟨(hone p w).1.trans hw.1, (hone p w).2.trans hw.2⟩

/-- What the end of an event leaves of streams and taps once ease has been judged. -/
theorem finish_about (s0 u : State) : (finish s0 u).streams = (judgeAllEase s0 (settleDrains s0 u)).streams ∧
    (finish s0 u).taps = (judgeAllEase s0 (settleDrains s0 u)).taps := by
  obtain ⟨_, _, hroles, -⟩ := postRoles_spec s0 (judgeAllEase s0 (settleDrains s0 u))
  obtain ⟨hf1, hf2, -⟩ := flush_keeps (postRoles s0 (judgeAllEase s0 (settleDrains s0 u)))
  obtain ⟨hq1, hq2⟩ := queueFarewells_keeps s0 (flush (postRoles s0 (judgeAllEase s0 (settleDrains s0 u))))
  rw [finish, hq1, hq2, hf1, hf2, hroles]
  exact ⟨rfl, rfl⟩

/-- Where what concerns one stream comes from at the end of a beat: its own steps, each in some state. -/
theorem beatTaken_about (h : s.TapsAgree) (st : StreamIx) : ∃ d w1 w2 w3,
    ((w1.TapsAgree ∧ w1.tb = s.beatBegun.tb ∧ w1.settings = s.settings) ∧ w1.about st = s.afterTaps.about st) ∧
    (w2.TapsAgree ∧ w2.about st = (beatStream st w1).about st) ∧
    (w3.TapsAgree ∧ w3.about st = (settleStep s d st w2).about st) ∧
    s.beatTaken.about st = (easeStep s st w3).about st := by
  obtain ⟨-, htb, hset, -⟩ := afterTaps_eq (s := s)
  have h1 := moved_beatStreams (afterTaps_agree h)
  obtain ⟨w1, ht1, hag1, hin1, hout1⟩ := h1.about st (mem_allStreams st)
  obtain ⟨-, -, hhs, hht⟩ := holdoverBeat_keeps s.afterStreams
  have hheld : (holdoverBeat s.afterStreams).TapsAgree ∧
      (holdoverBeat s.afterStreams).about st = s.afterStreams.about st := by
    unfold State.TapsAgree State.about
    rw [hhs, hht]
    exact ⟨h1.agree, rfl⟩
  obtain ⟨d, h2⟩ := moved_settleDrains hheld.1 s
  obtain ⟨w2, -, hag2, hin2, hout2⟩ := h2.about st (mem_allStreams st)
  have h3 := moved_judgeAllEase h2.agree s
  obtain ⟨w3, -, hag3, hin3, hout3⟩ := h3.about st (mem_allStreams st)
  refine ⟨d, w1, w2, w3, ⟨⟨hag1, ht1.tb.trans htb, ht1.settings.trans hset⟩, hin1⟩, ⟨hag2, ?_⟩, ⟨hag3, hin3.trans hout2⟩, ?_⟩
  · exact (hin2.trans hheld.2).trans hout1
  · obtain ⟨hs, ht⟩ := finish_about s (holdoverBeat s.afterStreams)
    rw [← hout3, State.beatTaken, State.about, State.about, hs, ht]

/-- Taps stand from the staged sets to the end of the beat, or go. -/
theorem beatTaken_taps (h : s.TapsAgree) (v : TapIx) : s.beatTaken.taps[v] = s.afterTaps.taps[v] ∨ s.beatTaken.taps[v] = none := by
  have h1 := moved_beatStreams (afterTaps_agree h)
  obtain ⟨-, -, hhs, hht⟩ := holdoverBeat_keeps s.afterStreams
  have hheld : (holdoverBeat s.afterStreams).TapsAgree := by
    unfold State.TapsAgree
    rw [hhs, hht]
    exact h1.agree
  obtain ⟨d, h2⟩ := moved_settleDrains hheld s
  have h3 := moved_judgeAllEase h2.agree s
  obtain ⟨-, ht⟩ := finish_about s (holdoverBeat s.afterStreams)
  rw [State.beatTaken, ht]
  rcases h3.taps v with e3 | e3
  · rw [e3]
    rcases h2.taps v with e2 | e2
    · rw [e2, hht]; exact h1.taps v
    · exact .inr e2
  · exact .inr e3

end

end Sys2Proof.Machine
end

section
namespace Sys2Proof.Machine

section
variable {s : State} {st : StreamIx} {r r' : Stream}

/-- The tail of a stream's beat where it does not settle: ease is judged where blocks have gone. -/
theorem easeStep_about {w : State} (hw : w.TapsAgree) {r : Stream} (hr : w.streams[st] = some r) :
    ∃ b, (easeStep s st w).about st = (some { r with eased := b }, (w.about st).2) ∧ (s.uOf st = r.u → b = r.eased) := by
  have hu : w.uOf st = r.u := by rw [State.uOf, hr]; rfl
  unfold easeStep
  rw [hu]
  by_cases h : s.uOf st = r.u
  · rw [if_pos h]
    exact ⟨r.eased, by rw [State.about, hr], fun _ => rfl⟩
  · rw [if_neg h, (moves_judgeEase hw st).2, hr]
    exact ⟨r.judged, rfl, fun e => absurd e h⟩

theorem easeStep_none {w : State} (hw : w.TapsAgree) (hr : w.streams[st] = none) :
    (easeStep s st w).about st = (none, (w.about st).2) := by
  unfold easeStep
  split
  · rw [State.about, hr]
  · rw [(moves_judgeEase hw st).2, hr]; rfl

theorem settleStep_keeps {d : PostItem} {w : State} (h : s.isEmptied st = true ∨ w.isEmptied st = false) :
    settleStep s d st w = w := by
  unfold settleStep
  split
  · rfl
  · rename_i h0
    exact settleDrain_of_not d (h.resolve_left h0)

/-- A stream whose drain does not end at the beat, and that the beat does not empty, ends as its start and its orphan
deadline leave it, with its taps; ease is judged where blocks have gone. -/
theorem stream_kept (h : s.TapsAgree) (hr : s.afterTaps.streams[st] = some r)
    (hat : r.atBeat s.beatOf s.settings.drainLimit = r') (hd : ¬ (r'.state = .draining ∧ r'.drainDeadline = some s.beatOf))
    (hs : s.isEmptied st = true ∨ r'.state ≠ .draining ∨ r.fifo ≠ []) : ∃ b, s.beatTaken.about st =
      (some { r' with eased := b }, (s.afterTaps.about st).2) ∧ (s.uOf st = r.u → b = r'.eased) := by
  subst hat
  obtain ⟨d, w1, w2, w3, ⟨⟨hag1, htb, hset⟩, hin⟩, ⟨hag2, hout⟩, ⟨hag3, hsettled⟩, hend⟩ := beatTaken_about h st
  have hr1 : w1.streams[st] = some r := (congrArg Prod.fst hin).trans hr
  have hbeat : w1.tb.beat = s.beatOf := by rw [htb]; rfl
  have hends : w1.drainEnds st = false := by
    rw [State.drainEnds, hr1, Option.any_some, hbeat, hset]
    exact decide_eq_false hd
  rw [beatStream_eq, hends, if_neg (by simp), hbeat, hset] at hout
  have hmod : (modStream st (Stream.atBeat s.beatOf s.settings.drainLimit) w1).about st =
      (some (r.atBeat s.beatOf s.settings.drainLimit), (s.afterTaps.about st).2) := by
    rw [← hin]
    simp only [State.about, modStream, vget_set, if_true, hr1, Option.map_some]
  rw [hmod] at hout
  have hr2 : w2.streams[st] = some (r.atBeat s.beatOf s.settings.drainLimit) := congrArg Prod.fst hout
  have hnot : s.isEmptied st = true ∨ w2.isEmptied st = false := by
    refine hs.imp_right fun hs => Bool.eq_false_iff.mpr fun e => ?_
    obtain ⟨h1, h2⟩ := (isEmptied_iff hr2).mp e
    rw [(atBeat_keeps _ _ r).2.2] at h2
    exact hs.elim (· h1) (· h2)
  rw [settleStep_keeps hnot, hout] at hsettled
  have hr3 : w3.streams[st] = some (r.atBeat s.beatOf s.settings.drainLimit) := congrArg Prod.fst hsettled
  obtain ⟨b, hb, heq⟩ := easeStep_about (s := s) hag3 hr3
  refine ⟨b, by rw [hend, hb, hsettled], fun hu => heq ?_⟩
  rw [hu, Stream.u, Stream.u, (atBeat_keeps _ _ r).2.2]

/-- A stream whose drain the beat ends has no taps from then on, and is FREE or waits for the blocks in flight. -/
theorem stream_ended (h : s.TapsAgree) (hr : s.afterTaps.streams[st] = some r) (h0 : s.isEmptied st = false)
    (hd : r.state = .draining) (hn : r.drainDeadline = some s.beatOf) : (s.beatTaken.about st).2 = (fun _ => none) ∧
      (s.beatTaken.streams[st] = none ∨ ∃ fifo b, fifo ≠ [] ∧ s.beatTaken.streams[st] =
        some { r with fifo := fifo, taps := [], closeBy := none, drainDeadline := none, eased := b }) := by
  obtain ⟨d, w1, w2, w3, ⟨⟨hag1, htb, hset⟩, hin⟩, ⟨hag2, hout⟩, ⟨hag3, hsettled⟩, hend⟩ := beatTaken_about h st
  have hr1 : w1.streams[st] = some r := (congrArg Prod.fst hin).trans hr
  have hbeat : w1.tb.beat = s.beatOf := by rw [htb]; rfl
  have hsame : r.atBeat s.beatOf s.settings.drainLimit = r := by
    simp only [Stream.atBeat, hd, reduceCtorEq, false_and, if_false]
  have hends : w1.drainEnds st = true := by
    rw [State.drainEnds, hr1, Option.any_some, hbeat, hset, hsame]
    exact decide_eq_true ⟨hd, hn⟩
  rw [beatStream_eq, hends, if_pos rfl, hbeat, hset] at hout
  have hmod : (modStream st (Stream.atBeat s.beatOf s.settings.drainLimit) w1).streams[st] = some r := by
    simp only [modStream, vget_set, if_true, hr1, Option.map_some, hsame]
  obtain ⟨-, fifo, -, habout⟩ := moves_endDrain (moves_atBeat hag1 st _ _).agree hmod .drainReply
  rw [habout] at hout
  have hr2 : w2.streams[st] = some { r with fifo := fifo, taps := [], closeBy := none, drainDeadline := none } :=
    congrArg Prod.fst hout
  have hstep : settleStep s d st w2 = settleDrain d st w2 := if_neg (by rw [h0]; simp)
  obtain ⟨-, hfree⟩ := moves_settleDrain hag2 st d
  by_cases hf : fifo = []
  · obtain ⟨hgone, htaps⟩ := hfree ((isEmptied_iff hr2).mpr ⟨hd, hf⟩)
    have hnil := htaps _ hr2 (.inr rfl)
    have h3 : (easeStep s st w3).about st = (none, fun _ => none) := by
      rw [easeStep_none hag3 (by rw [show w3.streams[st] = _ from congrArg Prod.fst hsettled, hstep]; exact hgone), hsettled,
        hstep, hnil]
    rw [hend, h3]
    exact ⟨rfl, .inl (congrArg Prod.fst (hend.trans h3))⟩
  · have hkeep : settleStep s d st w2 = w2 := settleStep_keeps (.inr (Bool.eq_false_iff.mpr fun e =>
      hf ((isEmptied_iff hr2).mp e).2))
    rw [hkeep, hout] at hsettled
    obtain ⟨b, hb, -⟩ := easeStep_about (s := s) hag3 (show w3.streams[st] = _ from congrArg Prod.fst hsettled)
    rw [hend, hb, hsettled]
    exact ⟨rfl, .inr ⟨fifo, b, hf, congrArg Prod.fst (hend.trans hb)⟩⟩

/-- A stream that comes to drain at the beat without blocks is FREE at its end, without taps. -/
theorem stream_emptied (h : s.TapsAgree) (hr : s.afterTaps.streams[st] = some r) (h0 : s.isEmptied st = false)
    (hat : r.atBeat s.beatOf s.settings.drainLimit = r') (hd : r'.state = .draining) (hf : r.fifo = [])
    (hs : r'.drainDeadline.isSome) (hn : r'.drainDeadline ≠ some s.beatOf) :
    s.beatTaken.about st = (none, fun _ => none) := by
  subst hat
  obtain ⟨d, w1, w2, w3, ⟨⟨hag1, htb, hset⟩, hin⟩, ⟨hag2, hout⟩, ⟨hag3, hsettled⟩, hend⟩ := beatTaken_about h st
  have hr1 : w1.streams[st] = some r := (congrArg Prod.fst hin).trans hr
  have hbeat : w1.tb.beat = s.beatOf := by rw [htb]; rfl
  have hends : w1.drainEnds st = false := by
    rw [State.drainEnds, hr1, Option.any_some, hbeat, hset]
    exact decide_eq_false fun e => hn e.2
  rw [beatStream_eq, hends, if_neg (by simp), hbeat, hset] at hout
  have hr2 : w2.streams[st] = some (r.atBeat s.beatOf s.settings.drainLimit) := by
    refine (congrArg Prod.fst hout).trans ?_
    simp only [State.about, modStream, vget_set, if_true, hr1, Option.map_some]
  have hstep : settleStep s d st w2 = settleDrain d st w2 := if_neg (by rw [h0]; simp)
  obtain ⟨hgone, htaps⟩ := (moves_settleDrain hag2 st d).2
    ((isEmptied_iff hr2).mpr ⟨hd, ((atBeat_keeps _ _ r).2.2).trans hf⟩)
  have hnil := htaps _ hr2 (.inl hs)
  rw [hend, easeStep_none hag3 (by rw [show w3.streams[st] = _ from congrArg Prod.fst hsettled, hstep]; exact hgone), hsettled,
    hstep, hnil]

/-- A tap on a stream that has lost all its taps is gone. -/
theorem tap_gone (h : s.TapsAgree) (hnone : (s.beatTaken.about st).2 = fun _ => none) (hr : s.streams[st] = some r)
    {v : TapIx} (hv : v ∈ r.taps) : s.beatTaken.taps[v] = none := by
  obtain ⟨x, hx, hxs⟩ := ((h st r hr).2 v).mp hv
  rcases beatTaken_taps h v with he | he
  · have : (s.beatTaken.taps[v]).filter (fun x => x.stream = st) = none := congrFun hnone v
    rw [he, afterTaps_taps, hx, Option.map_some, Option.filter_some,
      if_pos (by simpa using (tapAfter_tap x).2.2.trans hxs)] at this
    cases this
  · exact he

theorem drainLimit_ne (h : s.settings.Law) (n : Beat) : some (n + BitVec.ofNat 32 s.settings.drainLimit) ≠ some n := by
  obtain ⟨-, -, -, -, -, ⟨h1, h2⟩, -⟩ := h
  intro e
  have := Option.some.inj e
  bv_omega

/-! ### A stream of each state at a beat -/

theorem atBeat_opening {n : Beat} {limit : Nat} (h : r.state = .opening) :
    r.atBeat n limit = if r.startBeat = n then { r with state := .flowing } else r := by
  simp only [Stream.atBeat, h, true_and, reduceCtorEq, false_and, if_false]

theorem atBeat_idle {n : Beat} {limit : Nat} (h1 : r.state ≠ .opening) (h2 : r.state = .orphaned → r.orphanDeadline ≠ some n) :
    r.atBeat n limit = r := by
  rw [Stream.atBeat, if_neg fun e => h1 e.1, if_neg fun e => h2 e.1 e.2]

/-- An orphan that nobody has taken up by its deadline. -/
def Stream.drains (n : Beat) (limit : Nat) (r : Stream) : Stream := { r with
  state := .draining, producer := none, orphanDeadline := none, drainDeadline := some (n + BitVec.ofNat 32 limit) }

theorem atBeat_deadline {n : Beat} {limit : Nat} (h1 : r.state = .orphaned) (h2 : r.orphanDeadline = some n) :
    r.atBeat n limit = r.drains n limit := by
  rw [Stream.atBeat, if_neg fun e => by rw [h1] at e; exact absurd e.1 (by simp), if_pos ⟨h1, h2⟩, Stream.drains]

theorem adopter_none {n : Beat} (h : r.state ≠ .orphaned) : s.adopter n r = none := if_neg h

theorem afterTaps_kept (hr : s.streams[st] = some r) (hshed : ¬ s.beatSheds st) :
    s.afterTaps.streams[st] = some (s.standing (r.adoptedBy (s.adopter s.beatOf r))) := by
  obtain ⟨fifo, hafter, hkept⟩ := afterTaps_stream (s := s) st
  rw [hr, Option.map_some, hkept hshed r hr] at hafter
  rw [hafter]
  cases s.adopter s.beatOf r <;> rfl

section
variable (h : s.TapsAgree) (hr : s.streams[st] = some r) (hshed : ¬ s.beatSheds st)
include h hr

theorem beat_drained (h1 : r.state = .draining) (h2 : r.drainDeadline = some s.beatOf) (hf : r.fifo ≠ []) :
    (∀ v ∈ r.taps, s.beatTaken.taps[v] = none) ∧ (s.beatTaken.streams[st] = none ∨ ∃ r', s.beatTaken.streams[st] = some r' ∧
      r'.state = .draining ∧ r'.fifo ≠ [] ∧ r'.taps = [] ∧ r'.drainDeadline = none ∧ r'.closeBy = none) := by
  obtain ⟨fifo, hafter, -⟩ := afterTaps_stream (s := s) st
  rw [hr, Option.map_some, adopter_none (by rw [h1]; simp)] at hafter
  have h0 : s.isEmptied st = false := Bool.eq_false_iff.mpr fun e => hf ((isEmptied_iff hr).mp e).2
  obtain ⟨htaps, hstream⟩ := stream_ended h hafter h0 h1 h2
  refine ⟨fun v hv => tap_gone h htaps hr hv, hstream.imp_right ?_⟩
  rintro ⟨fifo', b, hf', he⟩
  exact ⟨_, he, h1, hf', rfl, rfl, rfl⟩

include hshed

/-- A stream that the beat does not end ends as the beat leaves it, with its taps. -/
theorem beat_kept {o : Option PortIx} (ho : s.adopter s.beatOf r = o)
    (hat : (s.standing (r.adoptedBy o)).atBeat s.beatOf s.settings.drainLimit = r')
    (hd : ¬ (r'.state = .draining ∧ r'.drainDeadline = some s.beatOf))
    (hs : s.isEmptied st = true ∨ r'.state ≠ .draining ∨ r.fifo ≠ []) :
    s.beatTaken.about st = (some r', (s.afterTaps.about st).2) := by
  have hafter := afterTaps_kept hr hshed
  rw [ho] at hafter
  have hfifo : (s.standing (r.adoptedBy o)).fifo = r.fifo := by cases o <;> rfl
  obtain ⟨b, he, hb⟩ := stream_kept h hafter hat hd (by rw [hfifo]; exact hs)
  rw [he, hb (by rw [State.uOf, hr, Option.map_some, Stream.u, Stream.u, hfifo]; rfl)]

theorem beat_opening (h1 : r.state = .opening) : s.beatTaken.about st =
    (some (if r.startBeat = s.beatOf then { s.standing r with state := .flowing } else s.standing r), (s.afterTaps.about st).2) := by
  have hst : (if r.startBeat = s.beatOf then ({ s.standing r with state := .flowing } : Stream) else s.standing r).state ≠
      .draining := by
    split
    · simp
    · rw [show (s.standing r).state = .opening from h1]; simp
  exact beat_kept h hr hshed (adopter_none (by rw [h1]; simp)) (atBeat_opening (r := s.standing r) h1) (fun e => hst e.1)
    (.inr (.inl hst))

theorem beat_stands (h1 : r.state = .flowing ∨ r.state = .draining ∧ r.drainDeadline ≠ some s.beatOf) :
    s.beatTaken.about st = (some (s.standing r), (s.afterTaps.about st).2) := by
  have hne : r.state ≠ .opening ∧ r.state ≠ .orphaned := by rcases h1 with h1 | ⟨h1, -⟩ <;> rw [h1] <;> simp
  refine beat_kept h hr hshed (adopter_none hne.2) (atBeat_idle (r := s.standing r) hne.1 fun e => absurd e hne.2) ?_ ?_
  · rintro ⟨e1, e2⟩
    rcases h1 with h1 | ⟨-, h1⟩
    · exact absurd (h1.symm.trans e1) (by simp)
    · exact h1 e2
  · by_cases hf : r.fifo = []
    · rcases h1 with h1 | ⟨h1, -⟩
      · exact .inr (.inl (by rw [show (s.standing r).state = .flowing from h1]; simp))
      · exact .inl ((isEmptied_iff hr).mpr ⟨h1, hf⟩)
    · exact .inr (.inr hf)

theorem beat_adopted {p : PortIx} (hp : s.adopter s.beatOf r = some p) :
    s.beatTaken.about st = (some (s.standing (r.takenUp p)), (s.afterTaps.about st).2) := by
  have hst : (s.standing (r.takenUp p)).state = .flowing := rfl
  refine beat_kept h hr hshed hp (atBeat_idle (r := s.standing (r.takenUp p)) ?_ ?_) ?_ (.inr (.inl ?_)) <;> rw [hst] <;> simp

theorem beat_orphan (hp : s.adopter s.beatOf r = none) (h1 : r.state = .orphaned) (h2 : r.orphanDeadline ≠ some s.beatOf) :
    s.beatTaken.about st = (some (s.standing r), (s.afterTaps.about st).2) := by
  have hst : (s.standing r).state = .orphaned := h1
  refine beat_kept h hr hshed hp (atBeat_idle (r := s.standing r) ?_ fun _ => h2) ?_ (.inr (.inl ?_)) <;> rw [hst] <;> simp

variable (hset : s.settings.Law)
include hset

theorem beat_expired (hp : s.adopter s.beatOf r = none) (h1 : r.state = .orphaned) (h2 : r.orphanDeadline = some s.beatOf)
    (hf : r.fifo ≠ []) : s.beatTaken.about st =
      (some ((s.standing r).drains s.beatOf s.settings.drainLimit), (s.afterTaps.about st).2) :=
  beat_kept h hr hshed hp (atBeat_deadline (r := s.standing r) h1 h2) (fun e => drainLimit_ne hset s.beatOf e.2) (.inr (.inr hf))

theorem beat_freed (hp : s.adopter s.beatOf r = none) (h1 : r.state = .orphaned) (h2 : r.orphanDeadline = some s.beatOf)
    (hf : r.fifo = []) : s.beatTaken.streams[st] = none ∧ ∀ v ∈ r.taps, s.beatTaken.taps[v] = none := by
  have hafter := afterTaps_kept hr hshed
  rw [hp] at hafter
  have h0 : s.isEmptied st = false := Bool.eq_false_iff.mpr fun e =>
    absurd (h1.symm.trans ((isEmptied_iff hr).mp e).1) (by simp)
  have hgone := stream_emptied h hafter h0 (atBeat_deadline (r := s.standing r) h1 h2) rfl hf rfl (drainLimit_ne hset s.beatOf)
  exact ⟨congrArg Prod.fst hgone, fun v hv => tap_gone h (congrArg Prod.snd hgone) hr hv⟩

end

end

/-! ### Streams at a beat -/

theorem beatMovesStreams : Claims.BeatMovesStreams := by
  intro s hrest hset hblock n hne
  have hn : s.beatOf = n := beatOf_eq s
  refine ⟨s.beatTaken, beatDue_runs hrest (fun e => hne (hn.symm.trans e)), fun st r hr => ?_⟩
  clear_value n
  subst hn
  intro stands
  have hag : s.TapsAgree := TapListLaw.agree (hblock hrest).1
  have hstands : stands = s.standing r := by
    refine congrArg (fun f => ({ r with closeBy := r.closeBy.filter f } : Stream)) (funext fun o => ?_)
    cases o with
    | service => rfl
    | port p => simp only [State.outlives, mem_allPorts, decide_true, Bool.true_and]; rfl
  clear_value stands
  subst hstands
  refine ⟨beat_drained hag hr, fun hshed => ⟨fun h1 => ?_, fun h1 => ?_, fun p hp => ?_, fun h1 hp => ⟨fun h2 => ?_, fun h2 hf => ?_,
    fun h2 hf => beat_freed hag hr hshed hset hp h1 h2 hf⟩⟩⟩
  · exact congrArg Prod.fst (beat_opening hag hr hshed h1)
  · exact congrArg Prod.fst (beat_stands hag hr hshed h1)
  · exact congrArg Prod.fst (beat_adopted hag hr hshed hp)
  · exact congrArg Prod.fst (beat_orphan hag hr hshed hp h1 h2)
  · exact congrArg Prod.fst (beat_expired hag hr hshed hset hp h1 h2 hf)

end Sys2Proof.Machine
end

section
namespace Sys2Proof.Machine

/-! ### Taps at a beat (R127, R129) -/

section
variable {s : State} {st : StreamIx} {r : Stream} {v : TapIx} {x : Tap}

/-- A tap whose stream keeps its taps ends as ports and staged sets leave it. -/
theorem tap_stands (hx : s.taps[v] = some x) (h : (s.beatTaken.about x.stream).2 = (s.afterTaps.about x.stream).2) :
    s.beatTaken.taps[v] = some (s.tapAfter x) := by
  have hv := congrFun h v
  simp only [State.about] at hv
  rw [afterTaps_taps, hx, Option.map_some, Option.filter_some, if_pos (by simpa using (tapAfter_tap x).2.2)] at hv
  exact (Option.filter_eq_some_iff.mp hv).1

/-- A stream that the beat does not bring to drain keeps its taps, whatever blocks are shed. -/
theorem taps_kept (h : s.TapsAgree) (hr : s.streams[st] = some r) (h1 : (r.adoptedBy (s.adopter s.beatOf r)).state ≠ .draining)
    (h2 : (r.adoptedBy (s.adopter s.beatOf r)).state = .orphaned →
      (r.adoptedBy (s.adopter s.beatOf r)).orphanDeadline ≠ some s.beatOf) :
    (s.beatTaken.about st).2 = (s.afterTaps.about st).2 := by
  obtain ⟨fifo, hafter, -⟩ := afterTaps_stream (s := s) st
  rw [hr, Option.map_some] at hafter
  generalize r.adoptedBy (s.adopter s.beatOf r) = y at h1 h2 hafter
  have hst : (({ s.standing y with fifo := fifo } : Stream).atBeat s.beatOf s.settings.drainLimit).state ≠ .draining := by
    unfold Stream.atBeat
    split
    · simp
    · split
      · rename_i e; exact absurd e.2 (h2 e.1)
      · exact h1
  obtain ⟨b, he, -⟩ := stream_kept h hafter rfl (fun e => hst e.1) (.inr (.inl hst))
  rw [he]

/-- A tap once ports and staged sets have taken the beat, given its stream before and what the ports leave of it. -/
theorem tapAfter_eq (hr : s.streams[x.stream] = some r) {k : Tap} (hk : s.beatBegun.tapTaken allPorts x = k) : s.tapAfter x =
    (match x.staged with
    | none => k
    | some m => { k with
      settings := { m with lag := if m.lag = 0 then r.depth else m.lag }
      phase := if m.decimation = x.settings.decimation then x.phase
        else if (s.adopter s.beatOf r).isSome then none
        else r.baseline.map (fun b => b.expected.toNat % m.decimation)
      staged := none }) := by
  subst hk
  obtain ⟨fifo, hafter, -⟩ := afterTaps_stream (s := s) x.stream
  rw [hr, Option.map_some, afterTaps_eq.1] at hafter
  have hkept : (s.beatBegun.tapTaken allPorts x).staged = x.staged ∧ (s.beatBegun.tapTaken allPorts x).stream = x.stream ∧
      (s.beatBegun.tapTaken allPorts x).settings = x.settings ∧ (s.beatBegun.tapTaken allPorts x).phase = x.phase := by
    unfold State.tapTaken
    split <;> exact ⟨rfl, rfl, rfl, rfl⟩
  obtain ⟨k1, k2, k3, k4⟩ := hkept
  cases hm : x.staged with
  | none => simp only [State.tapAfter, State.tapAltered, k1, hm]
  | some m =>
    simp only [State.tapAfter, State.tapAltered, k1, k2, k3, k4, hm, hafter]
    cases ha : s.adopter s.beatOf r with
    | none => rfl
    | some p => rfl

end

theorem beatAltersTaps : Claims.BeatAltersTaps := by
  intro s hrest hset hblock n hne
  have hn : s.beatOf = n := beatOf_eq s
  refine ⟨s.beatTaken, beatDue_runs hrest (fun e => hne (hn.symm.trans e)), fun v x r hx hr hcond => ?_⟩
  clear_value n
  subst hn
  have hag : s.TapsAgree := TapListLaw.agree (hblock hrest).1
  have habout : (s.beatTaken.about x.stream).2 = (s.afterTaps.about x.stream).2 := by
    have hunmoved : r.state ≠ .draining → (r.state = .orphaned → r.orphanDeadline ≠ some s.beatOf) →
        s.adopter s.beatOf r = none → (s.beatTaken.about x.stream).2 = (s.afterTaps.about x.stream).2 := fun h1 h2 hno =>
      taps_kept hag hr (by rw [hno]; exact h1) (by rw [hno]; exact h2)
    cases hp : s.adopter s.beatOf r with
    | some p =>
      have hst : (r.adoptedBy (s.adopter s.beatOf r)).state = .flowing := by rw [hp]; rfl
      exact taps_kept hag hr (by rw [hst]; simp) (by rw [hst]; simp)
    | none =>
      rcases hcond with h | h | h | ⟨h, hd | ⟨hf, hshed⟩⟩ | ⟨h, hd, hshed⟩
      · exact hunmoved (by rw [h]; simp) (by rw [h]; simp) hp
      · exact hunmoved (by rw [h]; simp) (by rw [h]; simp) hp
      · rw [hp] at h; cases h
      · exact hunmoved (by rw [h]; simp) (fun _ => hd) hp
      · by_cases hd : r.orphanDeadline = some s.beatOf
        · rw [beat_expired hag hr hshed hset hp h hd hf]
        · exact hunmoved (by rw [h]; simp) (fun _ => hd) hp
      · rw [beat_stands hag hr hshed (.inr ⟨h, hd⟩)]
  have htaken : s.beatBegun.tapTaken allPorts x =
      if s.holdEnds x.consumer then { x with pending := [], owed := satAdd x.owed x.pending.length } else x := by
    simp only [State.tapTaken, mem_allPorts, true_and]
    rfl
  rw [tap_stands hx habout]
  exact congrArg some (tapAfter_eq hr htaken)

end Sys2Proof.Machine
end

section
namespace Sys2Proof.Machine

/-! ### What a beat tells one origin (R41, R78, R158) -/

section
variable {s : State} {o : Origin}

theorem posts_begun (s : State) : s.beatBegun.posts = [] := rfl

/-- What the ports tell is all that has been posted by the time streams take the beat. -/
theorem afterTaps_posts (s : State) : s.beatBegun.tells allPorts s.afterTaps.posts := by
  obtain ⟨_, _, _, posts, hports, -, htells, -⟩ := portsTaken_all s.beatBegun
  have hposts : s.afterTaps.posts = posts := by
    rw [afterTaps_eq.2.2.2.1, State.afterPorts, hports, posts_begun]
    exact List.nil_append posts
  rw [hposts]
  exact htells

/-- The origins that the ports leave: a failed attempt takes its own along. -/
theorem afterTaps_origin (ho : ∀ p : PortIx, o = .port p → s.joinEnds s.beatOf p = false) : s.afterTaps.origin o = s.origin o := by
  obtain ⟨_, _, _, _, hor, hserv⟩ := afterTaps_eq (s := s)
  obtain ⟨_, _, _, _, hports, -⟩ := portsTaken_all s.beatBegun
  cases o with
  | service =>
    rw [State.origin, State.origin, hserv, State.afterPorts, hports]
    rfl
  | port p =>
    have hj : s.beatBegun.joinEnds s.beatBegun.tb.beat p = false := ho p rfl
    rw [State.origin, State.origin, hor, State.afterPorts, hports]
    simp only [taken_get, mem_allPorts, if_true, State.keepsUnless, hj, Bool.false_eq_true, if_false]
    rfl

theorem afterTaps_closes (hc : ∀ st, ¬ s.closes st o) (st : StreamIx) : ¬ s.afterTaps.closes st o := by
  rintro ⟨r', hr', hcl⟩
  obtain ⟨fifo, hafter, -⟩ := afterTaps_stream (s := s) st
  obtain ⟨r, hr, rfl⟩ := Option.map_eq_some_iff.mp (hafter.symm.trans hr')
  have hclose : (r.adoptedBy (s.adopter s.beatOf r)).closeBy = r.closeBy := by
    cases s.adopter s.beatOf r <;> rfl
  have hfilter : (r.closeBy.filter (s.beatBegun.outlives allPorts)) = some o := hclose ▸ hcl
  exact hc st ⟨r, hr, (Option.filter_eq_some_iff.mp hfilter).1⟩

/-- The states in which the drains of a beat have settled and ease has been judged. -/
def State.afterSettle (s : State) : State := settleDrains s (holdoverBeat s.afterStreams)

def State.afterEase (s : State) : State := judgeAllEase s s.afterSettle

theorem holdoverBeat_told (u : State) (o : Origin) : (holdoverBeat u).posts = u.posts ++ postsTo .service u.holdoverNotices ∧
    (holdoverBeat u).origin o = u.origin o := by
  rw [holdoverBeat_eq]; cases o <;> exact ⟨rfl, rfl⟩

theorem held_about (h : s.TapsAgree) : (holdoverBeat s.afterStreams).TapsAgree ∧
    ∀ st, (holdoverBeat s.afterStreams).about st = s.afterStreams.about st := by
  obtain ⟨-, -, hhs, hht⟩ := holdoverBeat_keeps s.afterStreams
  unfold State.TapsAgree State.about
  rw [hhs, hht]
  exact ⟨(moved_beatStreams (afterTaps_agree h)).agree, fun _ => rfl⟩

/-- What a beat posts to an origin without a close order pending, up to the roles. -/
theorem afterEase_posts (h : s.TapsAgree) (hc : ∀ st, ¬ s.closes st o)
    (ho : ∀ p : PortIx, o = .port p → s.joinEnds s.beatOf p = false) :
    s.afterEase.origin o = s.origin o ∧ OnlyNotices o s.afterEase.posts ∧ noticesTo o s.afterEase.posts =
      noticesTo o s.afterTaps.posts ++ allStreams.flatMap (fun st => s.afterTaps.beatEnds st o) ++
        (if o = .service then s.afterStreams.holdoverNotices else []) ++
        allStreams.flatMap (fun st => s.settleTold (holdoverBeat s.afterStreams) st o) ++
        allStreams.flatMap (fun st => s.easeJudged s.afterSettle st o) := by
  have h1 := moved_beatStreams (afterTaps_agree h)
  obtain ⟨p1, hp1, ho1⟩ := h1.posts
  obtain ⟨⟨hor1, hcl1⟩, hn1, ht1⟩ := ho1 o (afterTaps_closes hc)
  obtain ⟨hheld, habout⟩ := held_about h
  obtain ⟨d, h2⟩ := moved_settleDrains hheld s
  obtain ⟨p2, hp2, ho2⟩ := h2.posts
  obtain ⟨⟨hor2, hcl2⟩, hn2, ht2⟩ := ho2 o fun st => mt (closes_congr (habout st) o).mp (hcl1 st)
  have h3 := moved_judgeAllEase h2.agree s
  obtain ⟨p3, hp3, ho3⟩ := h3.posts
  obtain ⟨⟨hor3, -⟩, hn3, ht3⟩ := ho3 o hcl2
  have hposts : s.afterEase.posts = s.afterTaps.posts ++ p1 ++ postsTo .service s.afterStreams.holdoverNotices ++ p2 ++ p3 := by
    have hp1' : s.afterStreams.posts = s.afterTaps.posts ++ p1 := hp1
    rw [State.afterEase, State.afterSettle, hp3, hp2, (holdoverBeat_told s.afterStreams o).1, hp1']
  have hheldo := (holdoverBeat_told s.afterStreams o).2
  refine ⟨?_, ?_, ?_⟩
  · exact hor3.trans (hor2.trans (hheldo.trans (hor1.trans (afterTaps_origin ho))))
  · rw [hposts]
    exact onlyNotices_append (onlyNotices_append (onlyNotices_append (onlyNotices_append ((afterTaps_posts s).1 o) hn1)
      (onlyNotices_postsTo o _ _)) hn2) hn3
  · rw [hposts, noticesTo_append, noticesTo_append, noticesTo_append, noticesTo_append, ht1, ht2, ht3, noticesTo_postsTo]
    simp only [eq_comm (a := Origin.service)]
    rfl

/-- A FAREWELL goes to LEAVING ports alone. -/
theorem queueFarewells_origin (s0 u : State) (ho : ∀ p : PortIx, o = .port p → (u.ports[p]).state ≠ .leaving) :
    (queueFarewells s0 u).origin o = u.origin o := by
  refine (each_induct (P := fun w => w.ports = u.ports ∧ w.origin o = u.origin o) (fun p _ w hw => ?_) u ⟨rfl, rfl⟩).2
  obtain ⟨hports, horigin⟩ := hw
  split
  · exact ⟨hports, horigin⟩
  · unfold queueFarewell
    split
    · rename_i hpark
      have hne : o ≠ .port p := fun e => by
        have hst : (w.ports[p]).state = .leaving := by
          simp only [State.mayPark, Bool.and_eq_true, beq_iff_eq] at hpark
          exact hpark.1.1
        rw [hports] at hst
        exact ho p e hst
      exact ⟨hports, by rw [modOrigin_origin, if_neg hne]; exact horigin⟩
    · exact ⟨hports, horigin⟩

theorem takesBeat_selected {x : Timebase} (h : x.state = .holdover → x.selected = none) (limit : Nat) (trim : Int) :
    (x.takesBeat limit trim).selected = x.selected := by
  unfold Timebase.takesBeat
  split
  · rfl
  · rename_i hst
    split
    · rfl
    · exact (h (by simpa using hst)).symm

/-- A port that is LEAVING after a beat was so before. -/
theorem portBeat_leaving {b : State} {p : PortIx} (h : (b.portBeat p).state = .leaving) : (b.ports[p]).state = .leaving := by
  unfold State.portBeat at h
  dsimp only at h
  split at h
  · cases h
  · split at h
    · rw [leaves_state] at h
      unfold Port.afterFailure at h
      split at h <;> cases h
    · split at h
      · exact h
      · split at h <;> exact h

/-- What an origin holds at the end of a beat: what the beat has posted to it, in the order of R158. -/
theorem beatTaken_origin (h : s.TapsAgree) (href : s.ReferenceLaw) (hc : ∀ st, ¬ s.closes st o)
    (ho : ∀ p : PortIx, o = .port p → s.joinEnds s.beatOf p = false ∧ (s.ports[p]).state ≠ .leaving) :
    s.beatTaken.origin o = s.told o (ranked (noticesTo o s.afterEase.posts)) := by
  obtain ⟨horigin, honly, -⟩ := afterEase_posts h hc fun p hp => (ho p hp).1
  have htab : Tables (holdoverBeat s.afterStreams) s.afterEase :=
    (Tables.trans (t := s.afterSettle) (by
      obtain ⟨d, hm⟩ := moved_settleDrains (held_about h).1 s
      exact hm.tables) (by
      obtain ⟨d, hm⟩ := moved_settleDrains (held_about h).1 s
      exact (moved_judgeAllEase hm.agree s).tables))
  have hheld := (tables_holdoverBeat (tables_afterStreams s) rfl).trans htab
  obtain ⟨htb, hset, -⟩ := afterPorts_tb s
  have hsel : s.afterEase.tb.selected = s.tb.selected := by
    rw [hheld.tb]
    dsimp only
    rw [htb, hset]
    refine takesBeat_selected (x := s.beatBegun.tb) (fun hst => ?_) _ _
    have hlaw := href.1
    have hst' : s.tb.state = .holdover := hst
    rw [hst'] at hlaw
    exact hlaw.1
  obtain ⟨_, _, _, _, hports, -⟩ := portsTaken_all s.beatBegun
  have hrestarting : s.afterEase.restarting = s.restarting := by
    rw [hheld.restarting]
    dsimp only
    rw [State.afterPorts, hports]
    rfl
  have hstate : ∀ p : PortIx, o = .port p → ((flush s.afterEase).ports[p]).state ≠ .leaving := fun p hp hl => by
    rw [flush_frame State.ports (fun _ => by rfl)] at hl
    dsimp only at hl
    rw [hheld.ports] at hl
    dsimp only at hl
    rw [State.afterPorts, hports] at hl
    simp only [taken_get, mem_allPorts, if_true] at hl
    exact (ho p hp).2 (portBeat_leaving (b := s.beatBegun) hl)
  have hend : s.beatTaken = queueFarewells s (flush s.afterEase) := by
    rw [State.beatTaken, finish, ← State.afterSettle, ← State.afterEase, postRoles_quiet hsel]
  rw [hend, queueFarewells_origin s _ hstate, flush_origin honly, State.told, State.told, hrestarting, horigin]

end

end Sys2Proof.Machine
end

section
namespace Sys2Proof.Machine

/-! ### Which streams a beat tells of (R98, R99, R101) -/

section
variable {s : State} {st : StreamIx} {r : Stream}

/-- The drain of a stream ends at the beat, at its deadline. -/
def Stream.ends (n : Beat) (r : Stream) : Bool := r.state == .draining && r.drainDeadline == some n

/-- An orphan that nobody takes up ends at the beat, without blocks. -/
def State.lapses (s : State) (r : Stream) : Bool :=
  r.state == .orphaned && r.orphanDeadline == some s.beatOf && r.fifo.isEmpty && (s.adopter s.beatOf r).isNone

theorem ends_iff {n : Beat} : r.ends n = true ↔ r.state = .draining ∧ r.drainDeadline = some n := by
  simp only [Stream.ends, Bool.and_eq_true, beq_iff_eq]

theorem lapses_iff : s.lapses r = true ↔ ((r.state = .orphaned ∧ r.orphanDeadline = some s.beatOf) ∧ r.fifo = []) ∧
    s.adopter s.beatOf r = none := by
  simp only [State.lapses, Bool.and_eq_true, beq_iff_eq, List.isEmpty_iff, Option.isNone_iff_eq_none]

/-- A stream of which the beat sheds nothing, before it is judged: as its start and its orphan deadline would find it. -/
def State.found (s : State) (r : Stream) : Stream :=
  (s.standing (r.adoptedBy (s.adopter s.beatOf r))).atBeat s.beatOf s.settings.drainLimit

theorem found_draining (h : r.state = .draining) : s.found r = s.standing r := by
  have hno : s.adopter s.beatOf r = none := adopter_none (by rw [h]; simp)
  unfold State.found
  rw [hno]
  exact atBeat_idle (r := s.standing r) (fun e => absurd (h.symm.trans e) (by simp)) fun e => absurd (h.symm.trans e) (by simp)

theorem found_cases (s : State) (r : Stream) : (s.found r).fifo = r.fifo ∧ (s.found r).taps = r.taps ∧
    ((r.state = .draining ∧ s.found r = s.standing r) ∨ (s.found r).state ≠ .draining ∨
      ((r.state = .orphaned ∧ r.orphanDeadline = some s.beatOf) ∧ s.adopter s.beatOf r = none ∧
        s.found r = (s.standing r).drains s.beatOf s.settings.drainLimit)) := by
  obtain ⟨htaps, -, hfifo⟩ := atBeat_keeps s.beatOf s.settings.drainLimit (s.standing (r.adoptedBy (s.adopter s.beatOf r)))
  refine ⟨hfifo.trans (by cases s.adopter s.beatOf r <;> rfl), htaps.trans (adoptedBy_taps r _), ?_⟩
  by_cases hd : r.state = .draining
  · exact .inl ⟨hd, found_draining hd⟩
  unfold State.found
  cases hp : s.adopter s.beatOf r with
  | some p =>
    have hst : (s.standing (r.takenUp p)).state = .flowing := rfl
    refine .inr (.inl ?_)
    show ((s.standing (r.takenUp p)).atBeat _ _).state ≠ _
    rw [atBeat_idle (by rw [hst]; simp) (by rw [hst]; simp), hst]
    simp
  | none =>
    show _ ∨ ((s.standing r).atBeat _ _).state ≠ _ ∨ _
    by_cases ho : r.state = .orphaned ∧ r.orphanDeadline = some s.beatOf
    · exact .inr (.inr ⟨ho, rfl, atBeat_deadline (r := s.standing r) ho.1 ho.2⟩)
    · refine .inr (.inl ?_)
      have hst : (s.standing r).state ≠ .draining := hd
      unfold Stream.atBeat
      split
      · simp
      · split
        · rename_i e; exact absurd e ho
        · exact hst

variable (h : s.TapsAgree) (hset : s.settings.Law) (hr : s.streams[st] = some r) (hshed : ¬ s.beatSheds st)
include hset hr hshed

/-- At the beat itself just the drains at their deadline end. -/
theorem drainEnds_eq : s.afterTaps.drainEnds st = r.ends s.beatOf := by
  obtain ⟨-, htb, hs, -⟩ := afterTaps_eq (s := s)
  have hbeat : s.afterTaps.tb.beat = s.beatOf := by rw [htb]; rfl
  rw [State.drainEnds, afterTaps_kept hr hshed, Option.any_some, hbeat, hs]
  refine Bool.eq_iff_iff.mpr ((decide_eq_true_iff).trans (Iff.trans ?_ ends_iff.symm))
  show (s.found r).state = _ ∧ (s.found r).drainDeadline = _ ↔ _
  obtain ⟨-, -, ⟨hd, he⟩ | hst | ⟨⟨ho, -⟩, -, he⟩⟩ := found_cases s r
  · rw [he]; exact Iff.rfl
  · refine ⟨fun e => absurd e.1 hst, fun e => ?_⟩
    rw [found_draining e.1] at hst
    exact absurd e.1 hst
  · rw [he]
    refine ⟨fun e => absurd e.2 (drainLimit_ne hset s.beatOf), fun e => ?_⟩
    rw [ho] at e
    exact absurd e.1 (by simp)

include h

/-- What concerns a stream once the beat has been judged. -/
theorem afterStreams_about : (r.ends s.beatOf = true → ∃ r', s.afterStreams.streams[st] = some r' ∧ r'.drainDeadline = none ∧
      r'.producer = r.producer) ∧
    (r.ends s.beatOf = false → s.afterStreams.about st = (some (s.found r), (s.afterTaps.about st).2)) := by
  have h1 := moved_beatStreams (afterTaps_agree h)
  obtain ⟨w, ht, hag, hin, hout⟩ := h1.about st (mem_allStreams st)
  obtain ⟨-, htb, hs, -⟩ := afterTaps_eq (s := s)
  have hbeat : w.tb.beat = s.beatOf := by rw [ht.tb, htb]; rfl
  have hlimit : w.settings.drainLimit = s.settings.drainLimit := by rw [ht.settings, hs]
  have hends : w.drainEnds st = r.ends s.beatOf := (drainEnds_congr ht hin).trans (drainEnds_eq hset hr hshed)
  have hw : w.streams[st] = some (s.standing (r.adoptedBy (s.adopter s.beatOf r))) :=
    (congrArg Prod.fst hin).trans (afterTaps_kept hr hshed)
  have hmod : (modStream st (Stream.atBeat s.beatOf s.settings.drainLimit) w).streams[st] = some (s.found r) := by
    simp only [modStream, vget_set, if_true, hw, Option.map_some]; rfl
  have hout' : s.afterStreams.about st = (beatStream st w).about st := hout
  rw [beatStream_eq, hends, hbeat, hlimit] at hout'
  refine ⟨fun he => ?_, fun he => ?_⟩
  · rw [he, if_pos rfl] at hout'
    obtain ⟨-, fifo, -, habout⟩ := moves_endDrain (moves_atBeat hag st _ _).agree hmod .drainReply
    refine ⟨_, (congrArg Prod.fst hout').trans (congrArg Prod.fst habout), rfl, ?_⟩
    show (s.found r).producer = r.producer
    rw [found_draining (ends_iff.mp he).1]
    rfl
  · rw [he, if_neg (by simp)] at hout'
    rw [hout', State.about, hmod, ← hin]
    rfl

end

end Sys2Proof.Machine
end

section
namespace Sys2Proof.Machine

section
variable {s : State} {st : StreamIx} {r : Stream} {c : PortIx}

/-- What a port's taps are told is the same before and after. -/
theorem afterTaps_tapNotices (k : NoticeKind) (st : StreamIx) (l : List TapIx) (c : PortIx) :
    s.afterTaps.tapNotices k st l c = s.tapNotices k st l c := by
  refine List.filterMap_congr fun v _ => ?_
  rw [afterTaps_taps]
  cases s.taps[v] with
  | none => rfl
  | some x =>
    obtain ⟨hc, ht, -⟩ := tapAfter_tap (s := s) x
    simp only [Option.map_some, hc, ht]

theorem afterTaps_endNotices (hr : s.streams[st] = some r) (c : PortIx) :
    s.afterTaps.endNotices st (.port c) = s.tapNotices .streamEnded st r.taps c := by
  obtain ⟨fifo, hafter, -⟩ := afterTaps_stream (s := s) st
  rw [State.endNotices, hafter, hr, Option.map_some, Option.map_some, Option.getD_some, afterTaps_tapNotices]
  exact congrArg (s.tapNotices .streamEnded st · c) (adoptedBy_taps r _)

/-- A FREE stream stays FREE at a beat. -/
theorem afterStreams_free (h : s.TapsAgree) (hr : s.streams[st] = none) :
    s.afterTaps.drainEnds st = false ∧ s.afterStreams.streams[st] = none := by
  have hafter : s.afterTaps.streams[st] = none := by
    obtain ⟨fifo, hafter, -⟩ := afterTaps_stream (s := s) st
    rw [hafter, hr, Option.map_none]
  have hends : s.afterTaps.drainEnds st = false := by rw [State.drainEnds, hafter, Option.any_none]
  obtain ⟨w, ht, -, hin, hout⟩ := (moved_beatStreams (afterTaps_agree h)).about st (mem_allStreams st)
  refine ⟨hends, (stream_of_about hout).trans ?_⟩
  rw [beatStream_eq, drainEnds_congr ht hin, hends, if_neg (by simp)]
  simp only [modStream, vget_set, if_true, show w.streams[st] = none from (stream_of_about hin).trans hafter, Option.map_none]

/-- The settling of drains frees a stream or leaves it. -/
theorem afterSettle_stream (h : s.TapsAgree) (st : StreamIx) :
    s.afterSettle.streams[st] = none ∨ s.afterSettle.streams[st] = s.afterStreams.streams[st] := by
  obtain ⟨hheld, habout⟩ := held_about h
  obtain ⟨d, h2⟩ := moved_settleDrains hheld s
  obtain ⟨w, -, hag, hin, hout⟩ := h2.about st (mem_allStreams st)
  have hw : w.streams[st] = s.afterStreams.streams[st] := stream_of_about (hin.trans (habout st))
  have hfst : s.afterSettle.streams[st] = (settleStep s d st w).streams[st] := stream_of_about hout
  rw [hfst, ← hw]
  cases he : w.isEmptied st with
  | false => rw [settleStep_keeps (.inr he)]; exact .inr rfl
  | true =>
    by_cases h0 : s.isEmptied st = true
    · rw [settleStep, if_pos h0]; exact .inr rfl
    · rw [settleStep, if_neg h0]
      exact .inl ((moves_settleDrain hag st d).2 he).1

/-- What the beat itself tells a port of a stream. -/
theorem beatEnds_told (h : s.TapsAgree) (hset : s.settings.Law) (hshed : ¬ s.beatSheds st) (c : PortIx) :
    s.afterTaps.beatEnds st (.port c) = if (s.streams[st]).any (·.ends s.beatOf)
      then s.tapNotices .streamEnded st (((s.streams[st]).map (·.taps)).getD []) c else [] := by
  rw [State.beatEnds]
  cases hr : s.streams[st] with
  | none => rw [(afterStreams_free h hr).1, Option.any_none, if_neg Bool.false_ne_true, if_neg Bool.false_ne_true]
  | some r => rw [drainEnds_eq hset hr hshed, afterTaps_endNotices hr]; rfl

/-- What the settling of drains tells a port of a stream. -/
theorem settleTold_told (h : s.TapsAgree) (hset : s.settings.Law) (hshed : ¬ s.beatSheds st) (c : PortIx) :
    s.settleTold (holdoverBeat s.afterStreams) st (.port c) = if (s.streams[st]).any s.lapses
      then s.tapNotices .streamEnded st (((s.streams[st]).map (·.taps)).getD []) c else [] := by
  have hagree := (moved_beatStreams (afterTaps_agree h)).agree
  rw [State.settleTold, settleEnds_congr (u := s.afterStreams) hagree ((held_about h).2 st)]
  cases hr : s.streams[st] with
  | none =>
    have : s.afterStreams.settleEnds st (.port c) = [] := by
      rw [State.settleEnds, State.isEmptied, (afterStreams_free h hr).2]; rfl
    rw [this, ite_self]; rfl
  | some r =>
    obtain ⟨hdead, hlive⟩ := afterStreams_about h hset hr hshed
    rw [Option.any_some]
    cases he : r.ends s.beatOf with
    | true =>
      obtain ⟨r', hr', hnone, -⟩ := hdead he
      have hl : s.lapses r = false := Bool.eq_false_iff.mpr fun e => by
        have := (lapses_iff.mp e).1.1.1
        rw [(ends_iff.mp he).1] at this; cases this
      have : s.afterStreams.settleEnds st (.port c) = [] := by
        rw [State.settleEnds, hr', Option.any_some, hnone, Option.isSome_none, Bool.and_false, if_neg (by simp)]
      rw [this, ite_self, hl, if_neg (by simp)]
    | false =>
      have habout := hlive he
      have hfst : s.afterStreams.streams[st] = some (s.found r) := stream_eq_of_about habout
      obtain ⟨hfifo, htaps, hcases⟩ := found_cases s r
      have hnot : (r.state = .draining ∨ (s.found r).state ≠ .draining) → s.lapses r = false := fun hor =>
        Bool.eq_false_iff.mpr fun e => by
          obtain ⟨⟨⟨ho, hd⟩, -⟩, hno⟩ := lapses_iff.mp e
          refine hor.elim (fun hdr => by rw [ho] at hdr; cases hdr) fun hst => hst ?_
          have hat : (s.standing r).atBeat s.beatOf s.settings.drainLimit = _ := atBeat_deadline (r := s.standing r) ho hd
          unfold State.found
          rw [hno]
          exact congrArg Stream.state hat
      rcases hcases with ⟨hdr, hf⟩ | hst | ⟨⟨ho, hd⟩, hno, hf⟩
      · rw [hnot (.inl hdr), if_neg Bool.false_ne_true]
        by_cases h0 : s.isEmptied st = true
        · rw [if_pos h0]
        · rw [if_neg h0]
          have hem : s.afterStreams.isEmptied st = false := Bool.eq_false_iff.mpr fun e =>
            h0 ((isEmptied_iff hr).mpr ⟨hdr, hfifo ▸ ((isEmptied_iff hfst).mp e).2⟩)
          rw [State.settleEnds, hem]; rfl
      · have hem : s.afterStreams.isEmptied st = false := Bool.eq_false_iff.mpr fun e => hst ((isEmptied_iff hfst).mp e).1
        rw [hnot (.inr hst), State.settleEnds, hem]
        simp
      · have h0 : s.isEmptied st = false := Bool.eq_false_iff.mpr fun e =>
          absurd (ho.symm.trans ((isEmptied_iff hr).mp e).1) (by simp)
        have hem : s.afterStreams.isEmptied st = s.lapses r := by
          refine Bool.eq_iff_iff.mpr ((isEmptied_iff hfst).trans (Iff.trans ?_ lapses_iff.symm))
          rw [hfifo, hf]
          exact ⟨fun e => ⟨⟨⟨ho, hd⟩, e.2⟩, hno⟩, fun e => ⟨rfl, e.1.2⟩⟩
        have hsome : (s.found r).drainDeadline.isSome = true := by rw [hf]; rfl
        have hend : s.afterStreams.endNotices st = s.afterTaps.endNotices st := by
          refine endNotices_of_taps (afterTaps_agree h) ?_ (by rw [habout])
          rw [hfst, afterTaps_kept hr hshed, Option.map_some, Option.map_some, htaps]
          exact congrArg some (adoptedBy_taps r _).symm
        rw [h0, if_neg (by simp), State.settleEnds, hem, hfst, Option.any_some, hsome, Bool.and_true, hend,
          afterTaps_endNotices hr]
        rfl

/-- Ease of no stream is judged to its producer's knowledge where nothing is shed. -/
theorem easeJudged_nil (h : s.TapsAgree) (hset : s.settings.Law) (hlaw : s.StreamLaw) (hshed : ¬ s.beatSheds st)
    (o : Origin) : s.easeJudged s.afterSettle st o = [] := by
  have hgone : s.afterSettle.streams[st] = none → s.easeJudged s.afterSettle st o = [] := fun hnone => by
    rw [State.easeJudged, State.easeTold, hnone]
    exact ite_self _
  rcases afterSettle_stream h st with hnone | hsame
  · exact hgone hnone
  · cases hr : s.streams[st] with
    | none => exact hgone (hsame.trans (afterStreams_free h hr).2)
    | some r =>
      obtain ⟨hdead, hlive⟩ := afterStreams_about h hset hr hshed
      cases he : r.ends s.beatOf with
      | true =>
        obtain ⟨r', hr', -, hprod⟩ := hdead he
        have hnone : r.producer = none := by
          have hp := (hlaw.2 st r hr).1
          cases hq : r.producer with
          | none => rfl
          | some q =>
            rw [hq] at hp
            have := hp.1
            rw [Stream.isLive, (ends_iff.mp he).1] at this
            cases this
        rw [State.easeJudged, State.easeTold, hsame, hr', Option.map_some, hprod, hnone]
        exact ite_self _
      | false =>
        have hfst : s.afterSettle.streams[st] = some (s.found r) := hsame.trans (stream_eq_of_about (hlive he))
        have hu : s.uOf st = s.afterSettle.uOf st := by
          rw [State.uOf, State.uOf, hr, hfst, Option.map_some, Option.map_some, Stream.u, Stream.u, (found_cases s r).1]
        rw [State.easeJudged, if_pos hu]

end

end Sys2Proof.Machine
end

section
namespace Sys2Proof.Machine

/-! ### The notices of a beat, in the order of R158 -/

theorem flatMap_filter_ite {α β : Type} (l : List α) (c : α → Bool) (f : α → List β) :
    (l.filter c).flatMap f = l.flatMap (fun a => if c a then f a else []) := by
  induction l with
  | nil => rfl
  | cons a l ih =>
    rw [List.filter_cons, List.flatMap_cons]
    cases hc : c a with
    | true => rw [if_pos rfl, if_pos rfl, List.flatMap_cons, ih]
    | false => rw [if_neg Bool.false_ne_true, if_neg Bool.false_ne_true, List.nil_append, ih]

/-- One port's share of what is spread over all ports. -/
theorem flatMap_allPorts_single {β : Type} (c : PortIx) (f : PortIx → List β) :
    allPorts.flatMap (fun p => if c = p then f p else []) = f c := by
  obtain ⟨a, b, hab⟩ := List.append_of_mem (mem_allPorts c)
  have hn := (List.nodup_cons.mp (List.nodup_middle.mp (hab ▸ nodup_allPorts))).1
  have hnil : ∀ l : List PortIx, (∀ p ∈ l, c ≠ p) → l.flatMap (fun p => if c = p then f p else []) = [] := fun l hl => by
    rw [List.flatMap_congr fun p hp => if_neg (hl p hp), flatMap_nil']
  rw [hab, List.flatMap_append, List.flatMap_cons, if_pos rfl, hnil a fun p hp e => hn (List.mem_append_left _ (e ▸ hp)),
    hnil b fun p hp e => hn (List.mem_append_right _ (e ▸ hp)), List.nil_append, List.append_nil]

/-- Notices of three kinds, of which STREAM RESUMED is posted before ADOPTED and placed behind it. -/
theorem ranked_adopted {α : Type} {l : List α} {f g : α → Notices} {e : Notices} (hf : ∀ a, ∀ x ∈ f a, x.1 = .streamResumed)
    (hg : ∀ a, ∀ x ∈ g a, x.1 = .adopted) (he : ∀ x ∈ e, x.1 = .streamEnded) :
    ranked (l.flatMap (fun a => f a ++ g a) ++ e) = l.flatMap g ++ l.flatMap f ++ e := by
  have hf' := forall_mem_flatMap (l := l) hf
  have hg' := forall_mem_flatMap (l := l) hg
  refine ranked_eq (fun i => ?_) ?_
  · rw [List.filter_append, List.filter_append, List.filter_append, filter_flatMap_kinds (by decide) hf hg, filter_kind hf',
      filter_kind hg']
    by_cases h6 : NoticeKind.streamResumed.rank = i
    · have h4 : NoticeKind.adopted.rank ≠ i := fun e => absurd (e.trans h6.symm) (by decide)
      rw [if_pos h6, if_pos h6, if_neg h4, List.nil_append]
    · by_cases h4 : NoticeKind.adopted.rank = i
      · rw [if_neg h6, if_neg h6, if_pos h4, List.append_nil]
      · rw [if_neg h6, if_neg h6, if_neg h4, List.append_nil]
  · have hle : ∀ {a b : Notices} {k k' : NoticeKind}, k.rank ≤ k'.rank → (∀ x ∈ a, x.1 = k) → (∀ x ∈ b, x.1 = k') →
        ∀ x ∈ a, ∀ y ∈ b, x.1.rank ≤ y.1.rank := fun hk ha hb x hx y hy => by rw [ha x hx, hb y hy]; exact hk
    refine List.pairwise_append.mpr ⟨List.pairwise_append.mpr ⟨?_, ?_, hle (by decide) hg' hf'⟩, ?_, fun x hx y hy => ?_⟩
    · exact List.pairwise_of_forall_mem_list (hle le_rfl hg' hg')
    · exact List.pairwise_of_forall_mem_list (hle le_rfl hf' hf')
    · exact List.pairwise_of_forall_mem_list (hle le_rfl he he)
    · rcases List.mem_append.mp hx with hx | hx
      · exact hle (by decide) hg' he x hx y hy
      · exact hle (by decide) hf' he x hx y hy

section
variable {s : State}

/-- What a beat tells S, in its order. -/
theorem ranked_service : ranked (s.beatPortEvents s.beatOf ++ s.afterStreams.holdoverNotices) =
    s.beatPortEvents s.beatOf ++ s.afterStreams.holdoverNotices := by
  have hp : ∀ x ∈ s.beatPortEvents s.beatOf, x.1 = .portEvent := fun x hx => by
    obtain ⟨p, -, hp⟩ := List.mem_filterMap.mp hx
    dsimp only at hp
    split at hp
    · cases hp; rfl
    · split at hp
      · cases hp; rfl
      · cases hp
  have ht : ∀ x ∈ s.afterStreams.holdoverNotices, x.1 = .timebaseEvent := fun x hx => by
    unfold State.holdoverNotices at hx
    split at hx
    · rw [List.mem_singleton.mp hx]
    · cases hx
  refine ranked_eq (fun _ => rfl) (List.pairwise_append.mpr ⟨?_, ?_, fun x hx y hy => ?_⟩)
  · exact List.pairwise_of_forall_mem_list fun x hx y hy => by rw [hp x hx, hp y hy]
  · exact List.pairwise_of_forall_mem_list fun x hx y hy => by rw [ht x hx, ht y hy]
  · rw [hp x hx, ht y hy]; decide

theorem holdoverNotices_eq (s : State) : s.afterStreams.holdoverNotices =
    if s.tb.state = .holdover ∧ s.settings.holdoverLimit ≤ s.tb.holdoverBeats + 1 then
      [(.timebaseEvent, timebaseFields 3 0 8 15 0 s.settings.localTrim s.now)] else [] := by
  have ht := tables_afterStreams s
  obtain ⟨htb, hset, hclock⟩ := afterPorts_tb s
  rw [State.holdoverNotices, State.now, ht.tb, ht.settings, ht.clock, htb, hset, hclock]
  rfl

/-- What a beat tells S. -/
theorem beat_service (h : s.TapsAgree) (href : s.ReferenceLaw) (hc : ∀ st, ¬ s.closes st .service) :
    s.beatTaken.origin .service = s.told .service (s.beatPortEvents s.beatOf ++ s.afterStreams.holdoverNotices) := by
  rw [beatTaken_origin h href hc fun p hp => by cases hp]
  obtain ⟨-, -, hposts⟩ := afterEase_posts h hc fun p hp => by cases hp
  have hports : noticesTo .service s.afterTaps.posts = s.beatPortEvents s.beatOf := (afterTaps_posts s).2.1
  have hbeat : allStreams.flatMap (fun st => s.afterTaps.beatEnds st .service) = [] := by
    rw [List.flatMap_congr fun st _ => show s.afterTaps.beatEnds st .service = [] from ite_self _, flatMap_nil']
  have hsettle : allStreams.flatMap (fun st => s.settleTold (holdoverBeat s.afterStreams) st .service) = [] := by
    have : ∀ st, s.settleTold (holdoverBeat s.afterStreams) st .service = [] := fun st => by
      rw [State.settleTold, show (holdoverBeat s.afterStreams).settleEnds st .service = [] from ite_self _, ite_self]
    rw [List.flatMap_congr fun st _ => this st, flatMap_nil']
  have hease : allStreams.flatMap (fun st => s.easeJudged s.afterSettle st .service) = [] := by
    have hold : ∀ st, s.afterSettle.easeTold st .service = [] := fun st => by
      rw [State.easeTold]
      cases s.afterSettle.streams[st] with
      | none => rfl
      | some r => rw [Option.map_some, Option.getD_some, if_neg (by cases r.producer <;> simp)]
    have : ∀ st, s.easeJudged s.afterSettle st .service = [] := fun st => by rw [State.easeJudged, hold, ite_self]
    rw [List.flatMap_congr fun st _ => this st, flatMap_nil']
  rw [hposts, hports, hbeat, hsettle, hease, if_pos rfl, List.append_nil, List.append_nil, List.append_nil, ranked_service]

/-- The streams that a port takes up at a beat, each with the port. -/
def State.adoptions (s : State) : List (PortIx × StreamIx) :=
  allPorts.flatMap (fun p => (s.beatBegun.takenBy p).map (fun st => (p, st)))

theorem adoptions_flatMap (f : PortIx → StreamIx → Notices) : s.adoptions.flatMap (fun q => f q.1 q.2) =
    allPorts.flatMap (fun p => (s.beatBegun.takenBy p).flatMap (f p)) := by
  rw [State.adoptions, List.flatMap_assoc]
  exact List.flatMap_congr fun p _ => by rw [List.flatMap_map]

/-- What a port is told of a stream that it takes up, and what another is told by its taps on a stream. -/
def State.adoptedOf (s : State) (st : StreamIx) : NoticeKind × List Byte :=
  (.adopted, be 1 st.val ++ [((s.streams[st]).map (·.tag)).getD 0])

def State.tapsTold (s : State) (k : NoticeKind) (c : PortIx) (st : StreamIx) : Notices :=
  s.tapNotices k st (((s.streams[st]).map (·.taps)).getD []) c

theorem adoptions_adopted (c : PortIx) : s.adoptions.flatMap (fun q => if c = q.1 then [s.adoptedOf q.2] else []) =
    (s.beatBegun.takenBy c).map s.adoptedOf := by
  rw [adoptions_flatMap (fun p st => if c = p then [s.adoptedOf st] else []),
    ← flatMap_allPorts_single c fun p => (s.beatBegun.takenBy p).map s.adoptedOf]
  refine List.flatMap_congr fun p _ => ?_
  by_cases hp : c = p
  · simp only [if_pos hp, List.map_eq_flatMap]
  · simp only [if_neg hp, flatMap_nil']

/-- The streams whose drain a beat ends: those at their deadline, then those that lapse. -/
def State.ended (s : State) : List StreamIx :=
  allStreams.filter (fun st => (s.streams[st]).any (·.ends s.beatOf)) ++ allStreams.filter (fun st => (s.streams[st]).any s.lapses)

/-- What a port is told at a beat, as it is posted and in its order. -/
theorem ranked_port (c : PortIx) : ranked (s.adoptions.flatMap (fun q => s.beatBegun.resumeNotices c q.1 q.2) ++
    s.ended.flatMap (s.tapsTold .streamEnded c)) = s.beatNotices s.beatOf c := by
  have h := ranked_adopted (l := s.adoptions) (f := fun q => s.tapsTold .streamResumed c q.2)
    (g := fun q => if c = q.1 then [s.adoptedOf q.2] else []) (e := s.ended.flatMap (s.tapsTold .streamEnded c))
    (fun _ => tapNotices_kind) (fun q x hx => by
      split at hx
      · rw [List.mem_singleton.mp hx]; rfl
      · cases hx) (forall_mem_flatMap fun _ => tapNotices_kind)
  rw [adoptions_adopted, adoptions_flatMap fun _ st => s.tapsTold .streamResumed c st, ← List.flatMap_assoc] at h
  exact h

section
variable (h : s.TapsAgree) (hset : s.settings.Law) (hlaw : s.StreamLaw) {c : PortIx} (hj : s.joinEnds s.beatOf c = false)
  (hc : ∀ st, ¬ s.closes st (.port c)) (hshed : ∀ st, ¬ s.beatSheds st)
include h hset hlaw hj hc hshed

/-- What a beat that sheds nothing posts to a port. -/
theorem beat_port_posts : noticesTo (.port c) s.afterEase.posts =
    s.adoptions.flatMap (fun q => s.beatBegun.resumeNotices c q.1 q.2) ++ s.ended.flatMap (s.tapsTold .streamEnded c) := by
  obtain ⟨-, -, hposts⟩ := afterEase_posts h hc fun p hp => by cases hp; exact hj
  have hnot : ∀ p ∈ allPorts, ¬ s.beatBegun.portSheds p (fun _ => True) := by
    rintro p - ⟨hh, v, x, hx, rfl, -, hp⟩
    exact hshed x.stream ⟨v, x, hx, rfl, hp, hh⟩
  have hports : noticesTo (.port c) s.afterTaps.posts = s.adoptions.flatMap (fun q => s.beatBegun.resumeNotices c q.1 q.2) := by
    rw [adoptions_flatMap]
    exact (afterTaps_posts s).2.2 h hnot c
  have hbeat : allStreams.flatMap (fun st => s.afterTaps.beatEnds st (.port c)) =
      (allStreams.filter (fun st => (s.streams[st]).any (·.ends s.beatOf))).flatMap (s.tapsTold .streamEnded c) := by
    rw [flatMap_filter_ite]
    exact List.flatMap_congr fun st _ => beatEnds_told h hset (hshed st) c
  have hsettle : allStreams.flatMap (fun st => s.settleTold (holdoverBeat s.afterStreams) st (.port c)) =
      (allStreams.filter (fun st => (s.streams[st]).any s.lapses)).flatMap (s.tapsTold .streamEnded c) := by
    rw [flatMap_filter_ite]
    exact List.flatMap_congr fun st _ => settleTold_told h hset (hshed st) c
  have hease : allStreams.flatMap (fun st => s.easeJudged s.afterSettle st (.port c)) = [] := by
    rw [List.flatMap_congr fun st _ => easeJudged_nil h hset hlaw (hshed st) (.port c), flatMap_nil']
  rw [hposts, hports, hbeat, hsettle, hease, if_neg (by simp), List.append_nil, List.append_nil, List.append_assoc,
    ← List.flatMap_append]
  rfl

/-- What a beat that sheds nothing tells a port. -/
theorem beat_port (href : s.ReferenceLaw) (hst : (s.ports[c]).state ≠ .leaving) :
    s.beatTaken.origin (.port c) = s.told (.port c) (s.beatNotices s.beatOf c) := by
  rw [beatTaken_origin h href hc fun p hp => by cases hp; exact ⟨hj, hst⟩, beat_port_posts h hset hlaw hj hc hshed, ranked_port]

end

end

theorem beatTells : Claims.BeatTells := by
  intro s hserv hset hblock hlaw href n closes hne
  have hn : s.beatOf = n := beatOf_eq s
  have hrest : s.atRest = false := by
    simp only [State.inService, Bool.and_eq_true, Bool.not_eq_true'] at hserv
    exact hserv.1
  refine ⟨s.beatTaken, beatDue_runs hrest (fun e => hne (hn.symm.trans e)), ?_⟩
  clear_value n
  subst hn
  have hag : s.TapsAgree := TapListLaw.agree (hblock hrest).1
  have hcloses : ∀ o, ¬ closes o → ∀ st, ¬ s.closes st o := fun o ho st hst => ho ⟨st, hst⟩
  refine ⟨fun hc => ?_, fun c hst hj hc hshed => beat_port hag hset hlaw hj (hcloses _ hc) hshed href hst⟩
  rw [beat_service hag href (hcloses _ hc), holdoverNotices_eq]

/-- Settles O33: by the stages of the beat, of which the ports take the first, each by its own records. -/
theorem beatDue : Obligations.BeatDue :=
  ⟨beatFallsDue, steadyEchoDue, beatEndsLimits, beatMovesStreams, beatAltersTaps, beatCountsHoldover, beatTells⟩

end Sys2Proof.Machine
end

section
namespace Sys2Proof.Machine

/-! ### What the port law reads (R7, R26, R54, R154) -/

/-- What the port law reads of one port's records: state, frame ID, epoch, join deadline, score, queue, estimate, training. -/
abbrev PortView := PortState × Bool × Bool × Bool × Nat × Bool × Bool × Bool

def State.portView (s : State) (p : PortIx) : PortView :=
  let x := s.ports[p]
  (x.state, x.frame.isSome, x.epoch.isSome, x.joinDeadline.isSome, x.score, (s.origins[p]).isSome,
    (s.delays[p]).estimate.isSome, (s.delays[p]).training.isSome)

/-- The port law, of what it reads. -/
def PortView.Fits : PortView → Prop
  | (st, frame, epoch, deadline, score, queue, estimate, training) =>
    queue = st.isTrained ∧ estimate = st.isTrained ∧ frame = st.isRegistered ∧ training = (st == .training)
      ∧ epoch = (st == .admitted) ∧ deadline = (st == .joining) ∧ score ≤ Config.scoreLimit

theorem portLawAt_iff (s : State) (p : PortIx) : s.PortLawAt p ↔ (s.portView p).Fits := Iff.rfl

theorem portLaw_of_view {s t : State} (h : t.portView = s.portView) (hs : s.PortLaw) : t.PortLaw := fun p => by
  rw [portLawAt_iff, h]; exact hs p

/-- The law stands where one port fits and the others are as they were. -/
theorem portLaw_of_one {s t : State} {p : PortIx} (hp : (t.portView p).Fits)
    (h : ∀ q, q ≠ p → t.portView q = s.portView q) (hs : s.PortLaw) : t.PortLaw := fun q => by
  by_cases hq : q = p
  · subst hq; exact hp
  · rw [portLawAt_iff, h q hq]; exact hs q

theorem view_modPort {p : PortIx} {f : Port → Port} {s : State}
    (h : (f s.ports[p]).state = (s.ports[p]).state ∧ (f s.ports[p]).frame = (s.ports[p]).frame ∧
      (f s.ports[p]).epoch = (s.ports[p]).epoch ∧ (f s.ports[p]).joinDeadline = (s.ports[p]).joinDeadline ∧
      (f s.ports[p]).score = (s.ports[p]).score) : (modPort p f s).portView = s.portView := by
  obtain ⟨hst, hf, he, hj, hsc⟩ := h
  funext q
  simp only [State.portView, modPort_port, modPort_origins, modPort_delays]
  split
  · subst_vars; rw [hst, hf, he, hj, hsc]
  · rfl

theorem view_modDelay {p : PortIx} {f : Delay → Delay} {s : State}
    (h : (f s.delays[p]).estimate.isSome = (s.delays[p]).estimate.isSome ∧
      (f s.delays[p]).training.isSome = (s.delays[p]).training.isSome) : (modDelay p f s).portView = s.portView := by
  obtain ⟨he, ht⟩ := h
  funext q
  simp only [State.portView, modDelay_ports, modDelay_origins, modDelay_delays, vget_set]
  split
  · subst_vars; rw [he, ht]
  · rfl

theorem view_modOrigin (o : Origin) (f : OriginState → OriginState) (s : State) :
    (modOrigin o f s).portView = s.portView := by
  cases o with
  | service => rfl
  | port p =>
    funext q
    simp only [State.portView, modOrigin_ports, modOrigin_delays, modOrigin_port_origins, vget_set]
    split
    · subst_vars; rw [Option.isSome_map]
    · rfl

theorem view_countPort (p : PortIx) (f : PortCounters → PortCounters) (s : State) :
    (countPort p f s).portView = s.portView := view_modPort ⟨rfl, rfl, rfl, rfl, rfl⟩

theorem view_answerAs (x : PostItem) (o : Origin) (r : ResultCode) (b : List Byte) (s : State) :
    (answerAs x o r b s).portView = s.portView := by
  unfold answerAs
  split
  · exact view_modOrigin ..
  · rfl

/-- What entry to a port state leaves of what the port law reads. -/
def PortView.enter (st : PortState) : PortView → PortView
  | (_, frame, epoch, deadline, score, queue, estimate, training) =>
    match st with
    | .training => (st, frame, epoch, deadline, 0, queue, estimate, true)
    | .joining => (st, frame, epoch, true, score, true, estimate, training)
    | .admitted => (st, frame, epoch, false, score, queue, estimate, training)
    | .active => (st, frame, false, deadline, score, queue, estimate, training)
    | .leaving => (st, frame, epoch, deadline, score, queue, estimate, training)
    | .vacant | .listening | .parked | .faulted => (st, false, false, false, 0, false, false, false)

theorem view_enterState (p : PortIx) (st : PortState) (s : State) (q : PortIx) :
    (enterState p st s).portView q = if q = p then (s.portView p).enter st else s.portView q := by
  cases st <;>
  · simp only [enterState, outOfService, dropCloses_eq, modPort, modDelay, modEgress, emptyTriggers, modTriggers,
      setDrainSet, State.portView, PortView.enter, vget_set]
    split
    · subst_vars; rfl
    · rfl

theorem view_moveTo (p : PortIx) (st : PortState) (cause : PortCause) (s : State) (q : PortIx) :
    (moveTo p st cause s).portView q = if q = p then (s.portView p).enter st else s.portView q := view_enterState ..

/-- A move of a port keeps the law where what the port has entered with fits, and the other ports keep it. -/
theorem portLaw_moveTo {p : PortIx} {st : PortState} (cause : PortCause) {s : State}
    (hp : ((s.portView p).enter st).Fits) (hs : ∀ q, q ≠ p → s.PortLawAt q) : (moveTo p st cause s).PortLaw := fun q => by
  rw [portLawAt_iff, view_moveTo]
  split
  · exact hp
  · exact hs q ‹_›

/-- The states in which a port is out of service. -/
def PortState.isOut : PortState → Bool
  | .vacant | .listening | .parked | .faulted => true
  | _ => false

theorem fits_enter_out {st : PortState} (h : st.isOut = true) (v : PortView) : (v.enter st).Fits := by
  cases st with
  | vacant | listening | parked | faulted => exact ⟨rfl, rfl, rfl, rfl, rfl, rfl, Nat.zero_le _⟩
  | training | joining | admitted | active | leaving => exact Bool.noConfusion h

/-- A port that goes out of service fits, whatever it held. -/
theorem portLaw_moveOut {p : PortIx} {st : PortState} (h : st.isOut = true) (cause : PortCause) {s : State}
    (hs : ∀ q, q ≠ p → s.PortLawAt q) : (moveTo p st cause s).PortLaw := portLaw_moveTo cause (fits_enter_out h _) hs

/-- The moves from one state of service to the next that need nothing besides the law. -/
theorem fits_enter_next {v : PortView} {st : PortState} (hv : v.Fits)
    (h : v.1 = .listening ∧ st = .training ∨ v.1 = .admitted ∧ st = .active ∨ v.1 = .active ∧ st = .leaving) :
    (v.enter st).Fits := by
  obtain ⟨from', frame, epoch, deadline, score, queue, estimate, training⟩ := v
  obtain ⟨hq, he, hf, ht, hep, hj, hs⟩ := hv
  rcases h with ⟨rfl, rfl⟩ | ⟨rfl, rfl⟩ | ⟨rfl, rfl⟩
  · exact ⟨hq, he, hf, rfl, hep, hj, Nat.zero_le _⟩
  · exact ⟨hq, he, hf, ht, rfl, hj, hs⟩
  · exact ⟨hq, he, hf, ht, hep, hj, hs⟩

end Sys2Proof.Machine
end

section
namespace Sys2Proof.Machine

/-! ### What leaves the view of the port law: streams, store and taps -/

theorem view_each {α : Type} {f : α → State → State} (h : ∀ i s, (f i s).portView = s.portView) (is : List α)
    (s : State) : (each is f s).portView = s.portView := each_frame (g := State.portView) is h s

theorem view_releaseBlock (st : StreamIx) (b : Nat) (s : State) : (releaseBlock st b s).portView = s.portView := by
  unfold releaseBlock
  split <;> rfl

theorem view_postNotice (o : Origin) (k : NoticeKind) (b : List Byte) (s : State) :
    (postNotice o k b s).portView = s.portView := rfl

theorem view_removeTap (t : TapIx) (s : State) : (removeTap t s).portView = s.portView := by
  unfold removeTap
  split
  · rfl
  · exact view_each (view_releaseBlock _) _ s

theorem view_postConsumer (t : TapIx) (k : NoticeKind) (s : State) : (postConsumer t k s).portView = s.portView := by
  unfold postConsumer
  split <;> rfl

theorem view_shedTap (t : TapIx) (cause : Nat) (s : State) : (shedTap t cause s).portView = s.portView := by
  unfold shedTap
  split
  · rfl
  · rename_i x _
    refine Eq.trans (b := (releaseBlocks x.stream x.pending s).portView) ?_ (view_each (view_releaseBlock x.stream) _ s)
    exact (view_postNotice ..).trans (view_countPort ..)

theorem view_shedHeldPort (p : PortIx) (s : State) : (shedHeldPort p s).portView = s.portView := by
  refine view_each (fun t s => ?_) _ s
  split
  · split
    · rfl
    · exact view_shedTap ..
  · rfl

theorem view_meetTap (h : Handed) (t : TapIx) (acc : State × List TapIx) :
    (meetTap h t acc).1.portView = acc.1.portView := by
  unfold meetTap
  dsimp only
  split
  · rfl
  · split
    · exact view_removeTap t _
    · split
      · dsimp only
        split
        · exact view_shedTap t 1 _
        · rfl
      · rfl

theorem view_meetTaps (h : Handed) (ts : List TapIx) (acc : State × List TapIx) :
    (ts.foldl (fun acc t => meetTap h t acc) acc).1.portView = acc.1.portView := by
  induction ts generalizing acc with
  | nil => rfl
  | cons t ts ih => exact (ih _).trans (view_meetTap h t acc)

theorem view_handOff (h : Handed) (s : State) : (handOff h s).portView = s.portView := by
  unfold handOff
  split
  · rfl
  · rename_i r _
    have hm := view_meetTaps h r.taps (s, [])
    generalize r.taps.foldl (fun acc t => meetTap h t acc) (s, []) = acc at hm
    dsimp only
    split
    · exact hm
    · exact hm
    · split
      · exact (view_each (f := appendPending _) (fun _ _ => rfl) _ _).trans hm
      · exact (view_each (f := chargeDrop) (fun _ _ => rfl) _ _).trans hm

theorem view_checkSequence (st : StreamIx) (r : Stream) (n c : BitVec 16) (stamp : Stamp) (b : List Byte) (s : State) :
    (checkSequence st r n c stamp b s).portView = s.portView := by
  unfold checkSequence
  split
  · exact view_handOff ..
  · dsimp only
    split
    · rfl
    · exact view_handOff ..

theorem view_takeSamples (p : PortIx) (tag : Byte) (n c : BitVec 16) (stamp : Stamp) (b : List Byte) (s : State) :
    (takeSamples p tag n c stamp b s).portView = s.portView := by
  unfold takeSamples
  split
  · split
    · rfl
    · split
      · rfl
      · split
        · exact view_countPort ..
        · exact view_checkSequence ..
  · split
    · split
      · rfl
      · exact view_countPort ..
    · exact view_countPort ..

theorem view_endDrain (d : PostItem) (st : StreamIx) (s : State) : (endDrain d st s).portView = s.portView := by
  unfold endDrain
  split
  · rfl
  · rename_i r _
    have htaps := view_each (f := fun t s => s |> postConsumer t .streamEnded |> removeTap t)
      (fun t s => (view_removeTap t _).trans (view_postConsumer t _ s)) r.taps s
    dsimp only
    split
    · exact (view_answerAs ..).trans htaps
    · exact htaps

theorem view_freeStream (st : StreamIx) (s : State) : (freeStream st s).portView = s.portView := by
  unfold freeStream
  split
  · refine (view_each (fun p u => ?_) allPorts _).trans ?_ <;> rfl
  · rfl

theorem view_settleDrain (d : PostItem) (st : StreamIx) (s : State) : (settleDrain d st s).portView = s.portView := by
  unfold settleDrain
  split
  · rfl
  · split
    · refine (view_freeStream st _).trans ?_
      split
      · exact view_endDrain ..
      · rfl
    · rfl

theorem view_expireOrphan (st : StreamIx) (s : State) : (expireOrphan st s).portView = s.portView := by
  unfold expireOrphan
  split
  · rfl
  · split <;> rfl

theorem view_expireDrain (st : StreamIx) (s : State) : (expireDrain st s).portView = s.portView := by
  unfold expireDrain
  split
  · rfl
  · split
    · exact view_endDrain ..
    · rfl

theorem view_beatStream (st : StreamIx) (s : State) : (beatStream st s).portView = s.portView :=
  (view_expireDrain ..).trans (view_expireOrphan ..)

theorem view_applyStaged (t : TapIx) (s : State) : (applyStaged t s).portView = s.portView := by
  rw [applyStaged_eq]; rfl

theorem view_dropCloses (o : Origin) (s : State) : (dropCloses o s).portView = s.portView := by rw [dropCloses_eq]; rfl

theorem view_leaveStreams (orphan : Bool) (p : PortIx) (s : State) : (leaveStreams orphan p s).portView = s.portView := by
  refine view_each (fun st s => ?_) _ s
  cases orphan with
  | false => rfl
  | true =>
    simp only [if_true, orphanStream]
    split
    · rfl
    · exact view_each (fun t s => view_postConsumer t _ s) _ _

theorem view_readoptStreams (p : PortIx) (s : State) : (readoptStreams p s).portView = s.portView := by
  refine view_each (fun st s => ?_) _ s
  unfold readoptStream
  split
  · rfl
  · exact view_each (fun t s => view_postConsumer t _ s) _ _

/-! ### What leaves the view of the port law: timebase and triggers -/

theorem view_reselect (gone : TimebaseCause) (s : State) : (reselect gone s).portView = s.portView := by
  rw [reselect_eq]; rfl

theorem view_selectIdle (s : State) : (selectIdle s).portView = s.portView := by unfold selectIdle; split <;> rfl

theorem view_withdrawPort (p : PortIx) (s : State) : (withdrawPort p s).portView = s.portView := by
  rw [withdrawPort_eq]; rfl

theorem view_compareEdge (s : State) : (compareEdge s).portView = s.portView := by
  have hlock : ∀ e u, (judgeLock e u).portView = u.portView := fun e u => by
    unfold judgeLock
    lift_lets
    intro v
    have hv : v.portView = u.portView := rfl
    split
    · exact hv
    · split
      · exact (view_reselect ..).trans hv
      · exact hv
  have hwindow : ∀ e u, (judgeWindow e u).portView = u.portView := fun e u => by
    unfold judgeWindow
    split
    · rfl
    · dsimp only
      split
      · exact view_selectIdle _
      · rfl
  unfold compareEdge
  dsimp only
  split
  · exact hlock ..
  · exact hwindow ..
  · rfl

theorem view_countEdge (n : Nat) (s : State) : (countEdge n s).portView = s.portView := by
  unfold countEdge
  split
  · exact view_compareEdge s
  · rfl

theorem view_takeRefinEdge (s : State) : (takeRefinEdge s).portView = s.portView := by
  unfold takeRefinEdge
  dsimp only
  split
  · split
    · exact view_countEdge ..
    · rfl
  · exact view_reselect ..

theorem view_takeRefinAbsence (s : State) : (takeRefinAbsence s).portView = s.portView := by
  unfold takeRefinAbsence
  split
  · split
    · exact view_reselect ..
    · rfl
  · rfl

theorem view_takeEdgeAbsence (s : State) : (takeEdgeAbsence s).portView = s.portView := by
  unfold takeEdgeAbsence
  split
  · split
    · exact view_reselect ..
    · exact view_selectIdle _
    · rfl
  · rfl

theorem view_holdoverBeat (s : State) : (holdoverBeat s).portView = s.portView := by
  rw [holdoverBeat_eq]; rfl

theorem view_expireHoldover (s : State) : (expireHoldover s).portView = s.portView := by
  unfold expireHoldover
  split
  · rw [enterFree_eq]; rfl
  · rfl

theorem view_judgeTrigger (l : LineIx) (t0 : Stamp) (origin : Byte) (clamped : Bool) (s : State) :
    (judgeTrigger l t0 origin clamped s).portView = s.portView := by
  have hcopy : ∀ (c : TriggerCopy) p u, (enqueueCopy c p u).portView = u.portView := fun c p u => by
    unfold enqueueCopy
    dsimp only
    split
    · rfl
    · exact view_countPort ..
  have hfire : ∀ fire i u, (enterFire l fire i u).portView = u.portView := fun fire i u => by
    obtain ⟨g, hg⟩ := enterFire_eq l fire i u
    rw [hg u rfl rfl]; rfl
  unfold judgeTrigger
  split
  · rfl
  · exact (view_each (hfire _) _ _).trans (view_each (hcopy _) _ _)

theorem view_takeTrigger (p : PortIx) (line : Byte) (stamp : Stamp) (s : State) :
    (takeTrigger p line stamp s).portView = s.portView := by
  unfold takeTrigger
  split
  · exact view_countPort ..
  · split <;> exact view_judgeTrigger ..

theorem view_samplePin (i : PinIx) (level : Bool) (s : State) : (samplePin i level s).portView = s.portView := by
  unfold samplePin
  dsimp only
  split
  · split
    · exact view_judgeTrigger ..
    · rfl
  · rfl

theorem view_firePin (i : PinIx) (s : State) : (firePin i s).portView = s.portView := by
  unfold firePin
  split <;> rfl

theorem view_endPulse (i : PinIx) (s : State) : (endPulse i s).portView = s.portView := by
  unfold endPulse
  split
  · split <;> rfl
  · rfl

theorem view_leaveLines (p : PortIx) (s : State) : (leaveLines p s).portView = s.portView := by
  obtain ⟨lines, h, -⟩ := leaveLines_spec p s
  rw [h]; rfl

/-! ### The end of an event -/

theorem view_endKeeps (v : PortIx → PortView) : EndKeeps (fun s => s.portView = v) where
  removeTap t s hs := (view_removeTap t s).trans hs
  modOrigin o f s hs := (view_modOrigin o f s).trans hs
  posts _ _ hs := hs
  freeReads _ _ hs := hs
  ended _ _ hs := hs
  freed _ _ _ _ _ hs := hs
  drained _ _ _ hs := hs
  eased _ _ _ hs := hs

theorem view_finish (s0 s : State) : (finish s0 s).portView = s.portView := (view_endKeeps s.portView).finish rfl

theorem event_keepsPorts {f : State → State} {s t : State} (hf : ∀ u : State, u.PortLaw → (f u).PortLaw)
    (hs : s.PortLaw) (h : event f s = .next t) : t.PortLaw := by
  unfold event at h
  obtain rfl := Host.Outcome.next.inj h
  split
  · exact hs
  · exact portLaw_of_view (view_finish s _) (hf _ hs)

end Sys2Proof.Machine
end

section
namespace Sys2Proof.Machine

/-! ### Moves of a port keep the port law (R7, R22 to R40) -/

theorem view_teardown (orphan : Bool) (p : PortIx) (s : State) : (teardown orphan p s).portView = s.portView := by
  have htaps : ∀ u : State, (removePortTaps p u).portView = u.portView := fun u =>
    view_each view_removeTap (u.tapsOf p) u
  have hempty : ∀ u : State, (emptyTriggers p u).portView = u.portView := fun _ => rfl
  unfold teardown
  rw [hempty, view_leaveLines, view_withdrawPort, htaps, view_leaveStreams]

theorem byPresence_isOut (s : State) (p : PortIx) : (s.byPresence p).isOut = true := by
  unfold State.byPresence; split <;> rfl

theorem takeLoss_keepsPorts {p : PortIx} {cause : PortCause} {s : State} (hs : s.PortLaw) :
    (takeLoss p cause s).PortLaw := by
  unfold takeLoss
  dsimp only
  split
  · refine portLaw_moveOut (byPresence_isOut s p) cause fun q _ => ?_
    split
    · exact portLaw_of_view (view_teardown true p s) hs q
    · exact hs q
  · exact hs

theorem resetPort_keepsPorts {p : PortIx} {vacate : Bool} {cause : PortCause} {s : State} (hs : s.PortLaw) :
    (resetPort p vacate cause s).PortLaw := by
  refine portLaw_moveOut (by split <;> rfl) cause fun q _ => portLaw_of_view ?_ hs q
  refine (view_modPort ⟨rfl, rfl, rfl, rfl, rfl⟩).trans ?_
  split
  · exact view_teardown ..
  · rfl

/-- A failed attempt ends out of service, whatever the port held. -/
theorem failAttempt_keepsPorts {p : PortIx} {cause : PortCause} {s : State} (hs : ∀ q, q ≠ p → s.PortLawAt q) :
    (failAttempt p cause s).PortLaw := by
  have hq : ∀ q, q ≠ p →
      (modPort p (fun x => { x with failures := (s.ports[p]).failures + 1 }) s).PortLawAt q := fun q hq => by
    rw [portLawAt_iff, view_modPort ⟨rfl, rfl, rfl, rfl, rfl⟩]
    exact hs q hq
  unfold failAttempt
  dsimp only
  split
  · exact portLaw_moveOut rfl _ hq
  · exact portLaw_moveOut rfl _ hq

theorem raiseScore_keepsPorts {p : PortIx} {s : State} (hs : s.PortLaw) : (raiseScore p s).PortLaw := by
  have hset : ∀ n, n ≤ Config.scoreLimit → (modPort p (fun x => { x with score := n }) s).PortLaw := fun n hn => by
    refine portLaw_of_one (p := p) ?_ (fun q hq => ?_) hs
    · obtain ⟨hqu, he, hf, ht, hep, hj, -⟩ := (portLawAt_iff s p).mp (hs p)
      simp only [State.portView, modPort_port, if_true]
      exact ⟨hqu, he, hf, ht, hep, hj, hn⟩
    · simp only [State.portView, modPort_port, if_neg hq]; rfl
  unfold raiseScore
  dsimp only
  split
  · exact takeLoss_keepsPorts (hset _ (Nat.min_le_left ..))
  · exact hset _ (Nat.min_le_left ..)

theorem checkFailure_keepsPorts {p : PortIx} {s : State} (hs : s.PortLaw) : (checkFailure p s).PortLaw :=
  raiseScore_keepsPorts (portLaw_of_view (view_countPort ..) hs)

theorem expireJoin_keepsPorts {p : PortIx} {s : State} (hs : s.PortLaw) : (expireJoin p s).PortLaw := by
  unfold expireJoin
  dsimp only
  split
  · exact failAttempt_keepsPorts fun q _ => hs q
  · exact hs

theorem completeFilter_keepsPorts {p : PortIx} {s : State} (hs : s.PortLaw) : (completeFilter p s).PortLaw := by
  have hset : (modPort p (fun x => { x with presence := x.pin }) s).PortLaw :=
    portLaw_of_view (view_modPort ⟨rfl, rfl, rfl, rfl, rfl⟩) hs
  unfold completeFilter
  dsimp only
  split
  · exact hs
  · split
    · split
      · exact portLaw_moveOut rfl _ fun q _ => hset q
      · exact hset
    · split
      · exact portLaw_moveOut rfl _ fun q _ => hset q
      · exact portLaw_moveOut rfl _ fun q _ => hset q
      · exact portLaw_moveOut rfl _ fun q _ => hset q
      · exact takeLoss_keepsPorts hset

theorem setEnable_keepsPorts {p : PortIx} {on : Bool} {s : State} (hs : s.PortLaw) : (setEnable p on s).PortLaw := by
  have hset : (modSettings (fun w => { w with enable := w.enable.set p on }) s).PortLaw := hs
  unfold setEnable
  dsimp only
  split
  · split
    · exact portLaw_moveOut rfl _ fun q _ => hset q
    · exact hset
  · split
    · exact hset
    · exact resetPort_keepsPorts hset

theorem view_resetFillRun (p : PortIx) (s : State) : (resetFillRun p s).portView = s.portView := by
  unfold resetFillRun
  dsimp only
  refine (view_modPort ⟨rfl, rfl, rfl, rfl, rfl⟩).trans ?_
  split
  · exact view_countPort ..
  · rfl

theorem countFill_keepsPorts {p : PortIx} {symbol : Symbol} {s : State} (hst : (s.ports[p]).state = .listening)
    (hs : s.PortLaw) : (countFill p symbol s).PortLaw := by
  have hset : ∀ n, (modPort p (fun x => { x with fillRun := n }) s).portView = s.portView :=
    fun n => view_modPort ⟨rfl, rfl, rfl, rfl, rfl⟩
  unfold countFill
  split
  · dsimp only
    split
    · refine portLaw_moveTo _ (fits_enter_next (portLaw_of_view (hset _) hs p) (.inl ⟨?_, rfl⟩))
        fun q _ => portLaw_of_view (hset _) hs q
      rw [hset]; exact hst
    · exact portLaw_of_view (hset _) hs
  · exact portLaw_of_view (view_resetFillRun p s) hs

theorem takeSilence_keepsPorts {p : PortIx} {s : State} (hs : s.PortLaw) : (takeSilence p s).PortLaw := by
  unfold takeSilence
  dsimp only
  split
  · split
    · exact takeLoss_keepsPorts (portLaw_of_view (view_modPort ⟨rfl, rfl, rfl, rfl, rfl⟩) hs)
    · split
      · refine portLaw_of_view ((view_modPort ?_).trans (view_resetFillRun p s)) hs
        exact ⟨rfl, rfl, rfl, rfl, rfl⟩
      · exact hs
  · exact hs

theorem view_takeHold (p : PortIx) (s : State) : (takeHold p s).portView = s.portView := by
  unfold takeHold
  dsimp only
  split
  · exact (view_countPort ..).trans (view_modPort ⟨rfl, rfl, rfl, rfl, rfl⟩)
  · rfl

theorem view_takeGo (p : PortIx) (s : State) : (takeGo p s).portView = s.portView := by
  unfold takeGo
  dsimp only
  split
  · exact view_modPort ⟨rfl, rfl, rfl, rfl, rfl⟩
  · rfl

theorem view_expireHold (p : PortIx) (s : State) : (expireHold p s).portView = s.portView := by
  unfold expireHold
  dsimp only
  split
  · exact (view_modPort ⟨rfl, rfl, rfl, rfl, rfl⟩).trans (view_shedHeldPort p s)
  · rfl

theorem view_markBeat (p : PortIx) (s : State) : (markBeat p s).portView = s.portView := by
  unfold markBeat
  dsimp only
  split <;> rfl

theorem view_scheduleEcho (p : PortIx) (s : State) : (scheduleEcho p s).portView = s.portView := by
  unfold scheduleEcho
  dsimp only
  split
  · exact view_modDelay ⟨rfl, rfl⟩
  · rfl

theorem admitPort_keepsPorts {p : PortIx} {s : State} (hs : s.PortLaw) : (admitPort p s).PortLaw := by
  unfold admitPort
  dsimp only
  split
  · rename_i h
    refine portLaw_of_view (((view_scheduleEcho ..).trans (view_markBeat ..)).trans (view_readoptStreams ..)) ?_
    exact portLaw_moveTo _ (fits_enter_next (hs p) (.inr (.inl ⟨h.1, rfl⟩))) fun q _ => hs q
  · exact hs

theorem beatPort_keepsPorts {p : PortIx} {s : State} (hs : s.PortLaw) : (beatPort p s).PortLaw := by
  have hhold : ∀ u : State, (holdBeat p u).portView = u.portView := fun u => by
    unfold holdBeat
    dsimp only
    split
    · exact (view_expireHold ..).trans (view_modPort ⟨rfl, rfl, rfl, rfl, rfl⟩)
    · rfl
  unfold beatPort
  split
  · exact admitPort_keepsPorts hs
  · exact expireJoin_keepsPorts
      (portLaw_of_view ((hhold _).trans ((view_scheduleEcho ..).trans (view_markBeat ..))) hs)

theorem dueBeat_keepsPorts {s : State} (hs : s.PortLaw) : (dueBeat s).PortLaw := by
  have hports : ∀ u : State, u.PortLaw → (each allPorts beatPort u).PortLaw :=
    each_induct fun p _ u hu => beatPort_keepsPorts hu
  have htaps : ∀ u : State, (each allTaps applyStaged u).portView = u.portView :=
    view_each view_applyStaged allTaps
  unfold dueBeat
  split
  · exact hs
  · exact portLaw_of_view ((view_holdoverBeat _).trans ((view_each view_beatStream allStreams _).trans (htaps _)))
      (hports (modTb (fun t => { t with beat := s.beatOf }) s) hs)

theorem tailFarewell_keepsPorts {p : PortIx} {s : State} (hs : s.PortLaw) : (tailFarewell p s).PortLaw := by
  unfold tailFarewell
  split
  · split
    · dsimp only
      split
      · exact portLaw_moveOut rfl _ fun q _ => hs q
      · exact hs
    · exact hs
  · exact hs

end Sys2Proof.Machine
end

section
namespace Sys2Proof.Machine

/-! ### The delay unit keeps the port law (R23, R30, R46 to R57) -/

/-- A port whose training succeeds enters JOINING with its estimate (R23, R52). -/
theorem trained_keepsPorts {p : PortIx} {e : Estimate} {s : State} (hst : (s.ports[p]).state = .training)
    (hs : s.PortLaw) :
    (moveTo p .joining .trained (modDelay p (fun d => { d.clear with estimate := some e }) s)).PortLaw := by
  have hview : ∀ q, (modDelay p (fun d => { d.clear with estimate := some e }) s).portView q =
      if q = p then ((s.portView p).1, (s.portView p).2.1, (s.portView p).2.2.1, (s.portView p).2.2.2.1,
        (s.portView p).2.2.2.2.1, (s.portView p).2.2.2.2.2.1, true, false) else s.portView q := fun q => by
    simp only [State.portView, modDelay_ports, modDelay_origins, modDelay_delays, vget_set]
    split
    · subst_vars; rfl
    · rfl
  refine portLaw_moveTo _ ?_ fun q hq => ?_
  · obtain ⟨-, -, hf, -, hep, -, hsc⟩ := (portLawAt_iff s p).mp (hs p)
    rw [hst] at hf hep
    rw [hview, if_pos rfl]
    exact ⟨rfl, rfl, hf, rfl, hep, rfl, hsc⟩
  · rw [portLawAt_iff, hview, if_neg hq]; exact hs q

theorem judgeTraining_keepsPorts {p : PortIx} {l : List (Option (BitVec 16))} {s : State}
    (hst : (s.ports[p]).state = .training) (hs : s.PortLaw) : (judgeTraining p l s).PortLaw := by
  unfold judgeTraining
  dsimp only
  split
  · refine failAttempt_keepsPorts fun q hq => ?_
    rw [portLawAt_iff, view_countPort]
    simp only [State.portView, modDelay_ports, modDelay_origins, modDelay_delays, vget_set, if_neg hq]
    exact hs q
  · exact trained_keepsPorts hst hs

theorem endRound_keepsPorts {p : PortIx} {sample : Option (BitVec 16)} {s : State} (hs : s.PortLaw) :
    (endRound p sample s).PortLaw := by
  unfold endRound
  split
  · exact hs
  · rename_i tr htr
    have hst : (s.ports[p]).state = .training := by
      obtain ⟨-, -, -, ht, -⟩ := hs p
      rw [htr] at ht
      exact beq_iff_eq.mp ht.symm
    dsimp only
    split
    · refine portLaw_of_view (view_modDelay ⟨rfl, ?_⟩) hs
      rw [htr]; rfl
    · exact judgeTraining_keepsPorts hst hs

theorem missSteady_keepsPorts {p : PortIx} {s : State} (hs : s.PortLaw) : (missSteady p s).PortLaw := by
  have hset : ∀ n, (modPort p (fun x => { x with missRun := n }) s).PortLaw :=
    fun n => portLaw_of_view (view_modPort ⟨rfl, rfl, rfl, rfl, rfl⟩) hs
  unfold missSteady
  dsimp only
  split
  · exact takeLoss_keepsPorts (hset _)
  · exact hset _

theorem view_gateSteady (p : PortIx) (m : BitVec 16) (s : State) : (gateSteady p m s).portView = s.portView := by
  have hrun : (modPort p (fun x => { x with missRun := 0 }) s).portView = s.portView :=
    view_modPort ⟨rfl, rfl, rfl, rfl, rfl⟩
  unfold gateSteady
  dsimp only
  split
  · exact hrun
  · rename_i e he
    have hset : ∀ e', (modDelay p (fun d => { d with estimate := some e' })
        (modPort p (fun x => { x with missRun := 0 }) s)).portView = s.portView := fun e' => by
      refine (view_modDelay ⟨?_, rfl⟩).trans hrun
      rw [he]; rfl
    split
    · exact hset _
    · split
      · exact (view_countPort ..).trans (hset _)
      · exact hset _

theorem endExchange_keepsPorts {p : PortIx} {purpose : Purpose} {m : Measurement} {s : State} (hs : s.PortLaw) :
    (endExchange p purpose m s).PortLaw := by
  have hrej : (countEchoReject p s).PortLaw := portLaw_of_view (view_countPort ..) hs
  cases m with
  | valid d =>
    cases purpose with
    | training _ => exact endRound_keepsPorts hs
    | steady => exact portLaw_of_view (view_gateSteady p d s) hs
  | negative | range =>
    cases purpose with
    | training _ => exact endRound_keepsPorts hrej
    | steady => exact missSteady_keepsPorts hrej

theorem view_endEcho (p : PortIx) (s : State) :
    (modDelay p (fun d => { d with outstanding := none }) s).portView = s.portView := view_modDelay ⟨rfl, rfl⟩

theorem expireEcho_keepsPorts {p : PortIx} {s : State} (hs : s.PortLaw) : (expireEcho p s).PortLaw := by
  unfold expireEcho
  split
  · exact hs
  · split
    · have hset := portLaw_of_view ((view_countPort p (fun c => { c with missedEchoes := satAdd c.missedEchoes 1 }) _).trans
        (view_endEcho p s)) hs
      dsimp only
      split
      · exact endRound_keepsPorts hset
      · exact missSteady_keepsPorts hset
    · exact hs

theorem takeEchoBack_keepsPorts {p : PortIx} {number : Byte} {h : BitVec 24} {s : State} (hs : s.PortLaw) :
    (takeEchoBack p number h s).PortLaw := by
  have hstray : ∀ {u : State}, u.PortLaw → (countStray p u).PortLaw := fun hu => portLaw_of_view (view_countPort ..) hu
  unfold takeEchoBack
  split
  · dsimp only
    split
    · exact hstray (expireEcho_keepsPorts hs)
    · exact expireEcho_keepsPorts hs
  · unfold matchEchoBack
    split
    · exact hstray hs
    · split
      · exact endExchange_keepsPorts (portLaw_of_view (view_endEcho p s) hs)
      · exact hstray hs

/-! ### The transmit side leaves the view of the port law -/

theorem view_boundary (want : Pick → Bool) (p : PortIx) (second : Bool) (s : State) :
    (boundary want p second s).portView = s.portView := by
  have hlaunch : ∀ k slot u, (launch p slot k u).portView = u.portView := fun k slot u => by
    cases k with
    | beat n => rfl
    | echo purpose => exact view_modDelay ⟨rfl, rfl⟩
    | trigger c =>
      simp only [launch, launchTrigger]
      split <;> rfl
    | entry e => exact view_modOrigin ..
    | samples t =>
      simp only [launch, launchSamples]
      split <;> rfl
  unfold boundary
  dsimp only
  split
  · split
    · split
      · exact hlaunch ..
      · rfl
    · rfl
  · rfl

theorem view_tailSamples (p : PortIx) (s : State) : (tailSamples p s).portView = s.portView := by
  unfold tailSamples
  split
  · split
    · split
      · exact view_releaseBlock ..
      · rfl
    · rfl
  · rfl

theorem view_queueFarewell (p : PortIx) (s : State) : (queueFarewell p s).portView = s.portView := by
  unfold queueFarewell
  split
  · exact view_modOrigin ..
  · rfl

end Sys2Proof.Machine
end

section
namespace Sys2Proof.Machine

/-! ### The orders keep the port law (R26, R27, R31, R36, R40, R172) -/

theorem answer_keepsPorts {o : Origin} {r : ResultCode} {b : List Byte} {s : State} (hs : s.PortLaw) :
    (answer o r b s).PortLaw := portLaw_of_view (view_answerAs ..) hs

theorem refuse_keepsPorts {o : Origin} {r : ResultCode} {s : State} (hs : s.PortLaw) : (refuse o r s).PortLaw :=
  answer_keepsPorts hs

/-- A JOINING port that takes a frame ID and an epoch enters ADMITTED (R26, R27). -/
theorem joined_keepsPorts {p : PortIx} {frame : Frame} {epoch : Beat} {cause : PortCause} {s : State}
    (hst : (s.ports[p]).state = .joining) (hs : s.PortLaw) :
    (moveTo p .admitted cause (modPort p (fun x => { x with frame := some frame, epoch := some epoch }) s)).PortLaw := by
  refine portLaw_moveTo _ ?_ fun q hq => ?_
  · obtain ⟨hqu, he, -, ht, -, -, hsc⟩ := hs p
    rw [hst] at hqu he ht
    simp only [State.portView, modPort_port, if_true]
    exact ⟨hqu, he, rfl, ht, rfl, rfl, hsc⟩
  · rw [portLawAt_iff]
    simp only [State.portView, modPort_port, if_neg hq]
    exact hs q

theorem ownJoin_keepsPorts {o : Origin} {args : List Byte} {s : State} (hs : s.PortLaw) : (ownJoin o args s).PortLaw := by
  unfold ownJoin
  split
  · exact refuse_keepsPorts hs
  · split
    · exact refuse_keepsPorts hs
    · dsimp only
      split
      · exact refuse_keepsPorts hs
      · rename_i p _ hj
        have hst : (s.ports[p]).state = .joining := by
          by_contra hne; exact hj (.inl hne)
        refine joined_keepsPorts ?_ (answer_keepsPorts hs)
        have hv := congrArg (fun v : PortIx → PortView => (v p).1)
          (view_answerAs .reply (.port p) .done (s.joinResult p (admissionEpoch s.tb.beat)) s)
        exact hv.trans hst

theorem departPort_keepsPorts {p : PortIx} {s : State} (hst : (s.ports[p]).state = .active) (hs : s.PortLaw) :
    (departPort p s).PortLaw := by
  have hmove : (moveTo p .leaving .detach s).PortLaw :=
    portLaw_moveTo _ (fits_enter_next (hs p) (.inr (.inr ⟨hst, rfl⟩))) fun q _ => hs q
  have habort : ∀ u : State, (abortOrder p u).portView = u.portView := fun u =>
    (view_dropCloses (.port p) _).trans (view_answerAs ..)
  have hset : ∀ l (u : State), (setDrainSet p l u).portView = u.portView := fun _ _ => rfl
  have hplan : ∀ u : State, (plannedTeardown p u).portView = u.portView := fun u => by
    unfold plannedTeardown
    dsimp only
    rw [hset, view_modDelay ⟨rfl, rfl⟩, habort, view_teardown]
  exact portLaw_of_view (hplan _) hmove

/-- A port's state after an answer. -/
theorem answer_state (o : Origin) (r : ResultCode) (b : List Byte) (s : State) (p : PortIx) :
    ((answer o r b s).ports[p]).state = (s.ports[p]).state :=
  congrArg (fun v : PortIx → PortView => (v p).1) (view_answerAs .reply o r b s)

theorem ownDetach_keepsPorts {o : Origin} {args : List Byte} {s : State}
    (ho : ∀ p, o = .port p → (s.ports[p]).state = .active) (hs : s.PortLaw) : (ownDetach o args s).PortLaw := by
  unfold ownDetach
  split
  · split
    · exact refuse_keepsPorts hs
    · exact departPort_keepsPorts ((answer_state ..).trans (ho _ rfl)) (answer_keepsPorts hs)
  · split
    · exact refuse_keepsPorts hs
    · split
      · exact refuse_keepsPorts hs
      · split
        · exact departPort_keepsPorts ((answer_state ..).trans ‹_›) (answer_keepsPorts hs)
        · exact refuse_keepsPorts hs

theorem ownResetLink_keepsPorts {o : Origin} {args : List Byte} {s : State} (hs : s.PortLaw) :
    (ownResetLink o args s).PortLaw := by
  unfold ownResetLink
  split
  · exact refuse_keepsPorts hs
  · split
    · exact refuse_keepsPorts hs
    · split
      · dsimp only
        split
        · exact answer_keepsPorts hs
        · exact resetPort_keepsPorts (answer_keepsPorts hs)
      · exact refuse_keepsPorts hs

theorem setParameter_keepsPorts {x : Parameter} {p : PortIx} {v : Int} {s : State} (hs : s.PortLaw) :
    (setParameter x p v s).PortLaw := by
  cases x with
  | portEnable => exact setEnable_keepsPorts hs
  | localTrim =>
    simp only [setParameter]
    split
    · exact hs
    · exact hs
  | refinEnable | refinClass => exact portLaw_of_view (view_reselect ..) hs
  | frameWrite | gate | slew | promptCount | echoExp | asymmetry | holdoverLimit | orphanHold | drainLimit | joinLimit
  | holdLimit | egressMode => exact hs

theorem ownSetParam_keepsPorts {o : Origin} {args : List Byte} {s : State} (hs : s.PortLaw) :
    (ownSetParam o args s).PortLaw := by
  unfold ownSetParam
  dsimp only
  split
  · exact refuse_keepsPorts hs
  · split
    · exact refuse_keepsPorts hs
    · split
      · exact refuse_keepsPorts hs
      · split
        · exact refuse_keepsPorts hs
        · split
          · exact refuse_keepsPorts hs
          · split
            · exact refuse_keepsPorts hs
            · exact setParameter_keepsPorts (answer_keepsPorts hs)

/-- A port that the completion of a restart starts again fits, and no other port is touched (R44). -/
theorem restartPort_view (p : PortIx) (s : State) :
    ((restartPort p s).portView p).Fits ∧ ∀ q, q ≠ p → (restartPort p s).portView q = s.portView q := by
  have hset : (modPort p (fun x => { x with counters := PortCounters.zero, failures := 0, fillRun := 0 }) s).portView =
      s.portView := view_modPort ⟨rfl, rfl, rfl, rfl, rfl⟩
  unfold restartPort
  dsimp only
  split <;>
  · refine ⟨?_, fun q hq => ?_⟩
    · rw [view_enterState, if_pos rfl]; exact fits_enter_out rfl _
    · rw [view_enterState, if_neg hq, hset]

theorem completeRestart_keepsPorts (s : State) : (completeRestart s).PortLaw := by
  have hall : ∀ u : State, (each allPorts restartPort u).PortLaw := fun u p => by
    obtain ⟨w, hw⟩ := each_at (f := restartPort) nodup_allPorts (mem_allPorts p) u
    refine (hw (fun v => v.PortLawAt p) fun q _ hq v hv => ?_).2 (restartPort_view p w).1
    rw [portLawAt_iff, (restartPort_view q v).2 p (Ne.symm hq)]
    exact hv
  have hends : ∀ (u : State) v, u.PortLaw → ({ u with service := v, posts := [], restarting := false } : State).PortLaw :=
    fun _ _ hu => hu
  unfold completeRestart
  exact hends _ _ (hall _)

theorem tryComplete_keepsPorts {s : State} (hs : s.PortLaw) : (tryComplete s).PortLaw := by
  unfold tryComplete
  split
  · exact completeRestart_keepsPorts s
  · exact hs

theorem settleHub_keepsPorts {s : State} (hs : s.PortLaw) : (settleHub s).PortLaw := by
  have hreset : ∀ u : State, u.PortLaw →
      (each allPorts (fun p u => if (u.ports[p]).state = .vacant then u else resetPort p true .reset u) u).PortLaw :=
    each_induct fun p _ u hu => by
      split
      · exact hu
      · exact resetPort_keepsPorts hu
  have hwithdraw : (withdrawPorts s).PortLaw := by
    unfold withdrawPorts
    split
    · exact portLaw_of_view (view_reselect ..) hs
    · exact hs
  refine portLaw_of_view ((view_each view_removeTap allTaps _).trans ?_) (hreset _ hwithdraw)
  exact view_each (f := fun st => modStream st Stream.settle) (fun _ _ => rfl) allStreams _

theorem ownRestartHub_keepsPorts {o : Origin} {args : List Byte} {s : State} (hs : s.PortLaw) :
    (ownRestartHub o args s).PortLaw := by
  have hmark : ∀ u : State, u.PortLaw → ({ u with restarting := true } : State).PortLaw := fun _ hu => hu
  unfold ownRestartHub
  split
  · exact refuse_keepsPorts hs
  · exact tryComplete_keepsPorts (hmark _ (settleHub_keepsPorts hs))

end Sys2Proof.Machine
end

section
namespace Sys2Proof.Machine

theorem view_refuse (o : Origin) (r : ResultCode) (s : State) : (refuse o r s).portView = s.portView := view_answerAs ..

theorem view_answer (o : Origin) (r : ResultCode) (b : List Byte) (s : State) : (answer o r b s).portView = s.portView :=
  view_answerAs ..

/-- The orders on the timebase, on streams, taps, lines, pins and the setup store leave what the port law reads. -/
theorem view_ownOrder {c : OrderCode} (h : c ∉ [.join, .detach, .resetLink, .setParam, .restartHub]) (o : Origin)
    (args : List Byte) (s : State) : (ownOrder c o args s).portView = s.portView := by
  cases c with
  | join | detach | resetLink | setParam | restartHub => simp at h
  | readLink =>
    simp only [ownOrder, ownReadLink]
    split <;> [skip; split] <;> exact view_answerAs ..
  | readTimebase =>
    simp only [ownOrder, ownReadTimebase]
    split <;> exact view_answerAs ..
  | findStream =>
    simp only [ownOrder, ownFindStream]
    split <;> [skip; split] <;> exact view_answerAs ..
  | readStream =>
    simp only [ownOrder, ownReadStream]
    split
    · exact view_answerAs ..
    · split
      · exact view_answerAs ..
      · split <;> [skip; (split <;> [skip; split])] <;> exact view_answerAs ..
  | readLine =>
    simp only [ownOrder, ownReadLine]
    split <;> [skip; split] <;> exact view_answerAs ..
  | readPin =>
    simp only [ownOrder, ownReadPin]
    split <;> [skip; split] <;> exact view_answerAs ..
  | setupRead =>
    simp only [ownOrder, ownSetupRead]
    split <;> [skip; split] <;> exact view_answerAs ..
  | readStore =>
    simp only [ownOrder, ownReadStore]
    split <;> exact view_answerAs ..
  | proposeReference =>
    simp only [ownOrder, ownProposeReference]
    split
    · exact view_refuse ..
    · split
      · exact view_refuse ..
      · exact (view_reselect ..).trans (view_answer ..)
  | withdrawReference =>
    simp only [ownOrder, ownWithdrawReference]
    split
    · exact view_refuse ..
    · split
      · exact view_refuse ..
      · exact (view_withdrawPort ..).trans (view_answer ..)
  | openStream =>
    simp only [ownOrder, ownOpenStream]
    split
    · exact view_refuse ..
    · split
      · exact view_refuse ..
      · split
        · exact view_refuse ..
        · split
          · exact view_refuse ..
          · split
            · exact view_refuse ..
            · exact view_answer ..
  | closeStream =>
    simp only [ownOrder, ownCloseStream]
    split
    · exact view_refuse ..
    · split
      · exact view_refuse ..
      · split
        · exact view_refuse ..
        · split <;>
          · split
            · exact view_refuse ..
            · split
              · exact view_refuse ..
              · rfl
  | addTap =>
    simp only [ownOrder, ownAddTap]
    split
    · split
      · exact view_refuse ..
      · split
        · exact view_refuse ..
        · split
          · exact view_refuse ..
          · split
            · exact view_refuse ..
            · split
              · exact view_refuse ..
              · split
                · exact view_refuse ..
                · split
                  · exact view_refuse ..
                  · split
                    · exact view_refuse ..
                    · split
                      · exact view_refuse ..
                      · exact view_answer ..
    · exact view_refuse ..
  | alterTap =>
    simp only [ownOrder, ownAlterTap]
    split
    · split
      · exact view_refuse ..
      · split
        · exact view_refuse ..
        · split
          · exact view_refuse ..
          · split
            · exact view_refuse ..
            · split
              · exact view_refuse ..
              · exact view_answer ..
    · exact view_refuse ..
  | dropTap =>
    simp only [ownOrder, ownDropTap]
    split
    · exact view_refuse ..
    · split
      · exact view_refuse ..
      · split
        · exact view_refuse ..
        · split
          · exact view_refuse ..
          · split
            · split
              · exact (view_removeTap ..).trans (view_answer ..)
              · exact (view_postNotice ..).trans ((view_removeTap ..).trans (view_answer ..))
            · exact view_refuse ..
  | setLine =>
    simp only [ownOrder, ownSetLine]
    split
    · exact view_refuse ..
    · split
      · exact view_refuse ..
      · exact view_answer ..
  | subscribeLine | unsubscribeLine =>
    simp only [ownOrder, ownSubscribeLine, ownUnsubscribeLine, subscribe]
    split
    · split
      · exact view_refuse ..
      · exact view_answer ..
    · exact view_refuse ..
  | setPin =>
    simp only [ownOrder, ownSetPin]
    split
    · split
      · exact view_refuse ..
      · exact view_answer ..
    · exact view_refuse ..
  | setupWrite =>
    simp only [ownOrder, ownSetupWrite]
    split
    · exact view_refuse ..
    · split
      · exact view_refuse ..
      · split
        · exact view_refuse ..
        · split
          · exact view_refuse ..
          · split
            · exact view_refuse ..
            · rfl
  | setupClear =>
    simp only [ownOrder, ownSetupClear]
    split
    · exact view_refuse ..
    · split
      · exact view_refuse ..
      · rfl

theorem ownOrder_keepsPorts {c : OrderCode} {o : Origin} {args : List Byte} {s : State}
    (ho : c = .detach → ∀ p, o = .port p → (s.ports[p]).state = .active) (hs : s.PortLaw) :
    (ownOrder c o args s).PortLaw := by
  by_cases hc : c ∈ [OrderCode.join, .detach, .resetLink, .setParam, .restartHub]
  · simp only [List.mem_cons, List.not_mem_nil, or_false] at hc
    rcases hc with rfl | rfl | rfl | rfl | rfl
    · exact ownJoin_keepsPorts hs
    · exact ownDetach_keepsPorts (ho rfl) hs
    · exact ownResetLink_keepsPorts hs
    · exact ownSetParam_keepsPorts hs
    · exact ownRestartHub_keepsPorts hs
  · exact portLaw_of_view (view_ownOrder hc o args s) hs

theorem takeOrder_keepsPorts {o : Origin} {ident code : Byte} {args : List Byte} {s : State} (hs : s.PortLaw) :
    (takeOrder o ident code args s).PortLaw := by
  have hslot : ∀ c, (occupySlot o ident c s).PortLaw := fun c => portLaw_of_view (view_modOrigin ..) hs
  unfold takeOrder
  split
  · exact hs
  · split
    · unfold takeBusy
      split
      · cases o with
        | port p => exact portLaw_of_view (view_countPort ..) hs
        | service => exact hs
      · exact portLaw_of_view (view_modOrigin ..) hs
    · split
      · exact refuse_keepsPorts (hslot _)
      · rename_i c _
        unfold decideOrder
        dsimp only
        split
        · exact refuse_keepsPorts (hslot _)
        · rename_i hallow
          split
          · exact refuse_keepsPorts (hslot _)
          · refine ownOrder_keepsPorts (fun hc p ho => ?_) (hslot _)
            subst hc ho
            have hst : ((occupySlot (.port p) ident OrderCode.detach.byte s).ports[p]).state = (s.ports[p]).state := rfl
            rw [hst]
            simp only [State.stateAllows, Bool.not_eq_true, Bool.not_eq_false'] at hallow
            split at hallow
            · assumption
            · exact absurd hallow (by decide)
            · exact absurd hallow (by decide)

/-! ### The receive side keeps the port law (R4, R5, R9, R10) -/

theorem arrive_keepsPorts {p : PortIx} {x : Option Inbound} {s : State} (hs : s.PortLaw) : (arrive p x s).PortLaw := by
  have hscore : (modPort p (fun y => { y with score := y.score - 1 }) s).PortLaw := by
    refine portLaw_of_one (p := p) ?_ (fun q hq => ?_) hs
    · obtain ⟨hqu, he, hf, ht, hep, hj, hsc⟩ := hs p
      simp only [State.portView, modPort_port, if_true]
      exact ⟨hqu, he, hf, ht, hep, hj, (Nat.sub_le ..).trans hsc⟩
    · simp only [State.portView, modPort_port, if_neg hq]; rfl
  unfold arrive
  dsimp only
  split
  · unfold dispatch
    dsimp only
    split
    · exact takeEchoBack_keepsPorts hscore
    · split
      · exact portLaw_of_view (view_takeSamples ..) hscore
      · exact portLaw_of_view (view_countPort ..) hscore
    · split
      · exact portLaw_of_view (view_takeTrigger ..) hscore
      · exact portLaw_of_view (view_countPort ..) hscore
    · split
      · exact portLaw_of_view (view_countPort ..) hscore
      · exact takeOrder_keepsPorts hscore
    · exact portLaw_of_view (view_countPort ..) hscore
  · exact portLaw_of_view (view_countPort ..) hscore

theorem view_setFramer (p : PortIx) (mode : FramerMode) (buffer : List Byte) (s : State) :
    (setFramer p mode buffer s).portView = s.portView := view_modPort ⟨rfl, rfl, rfl, rfl, rfl⟩

theorem takeFramer_keepsPorts {p : PortIx} {symbol : Symbol} {s : State} (hs : s.PortLaw) :
    (takeFramer p symbol s).PortLaw := by
  have hset : ∀ mode buffer, (setFramer p mode buffer s).PortLaw :=
    fun mode buffer => portLaw_of_view (view_setFramer p mode buffer s) hs
  unfold takeFramer
  dsimp only
  split
  · exact hs
  · exact hs
  · exact hs
  · exact hset _ _
  · exact raiseScore_keepsPorts hs
  · exact raiseScore_keepsPorts hs
  · exact raiseScore_keepsPorts hs
  · exact checkFailure_keepsPorts (hset _ _)
  · exact checkFailure_keepsPorts (hset _ _)
  · split
    · exact hset _ _
    · exact checkFailure_keepsPorts (hset _ _)
  · unfold judgeParcel
    split
    · exact checkFailure_keepsPorts (hset _ _)
    · exact arrive_keepsPorts (hset _ _)
  · exact checkFailure_keepsPorts (hset _ _)
  · exact hset _ _
  · exact hset _ _
  · exact hset _ _
  · exact hs
  · exact raiseScore_keepsPorts hs

theorem view_recordReceipt (p : PortIx) (s : State) : (recordReceipt p s).portView = s.portView :=
  view_modPort ⟨rfl, rfl, rfl, rfl, rfl⟩

theorem view_restartSilence (p : PortIx) (s : State) : (restartSilence p s).portView = s.portView :=
  view_modPort ⟨rfl, rfl, rfl, rfl, rfl⟩

theorem receiveSymbol_keepsPorts {p : PortIx} {symbol : Symbol} {f : Fraction} {s : State} (hs : s.PortLaw) :
    (receiveSymbol p symbol f s).PortLaw := by
  have hview : (restartSilence p (recordReceipt p (at_ f s))).portView = s.portView :=
    (view_restartSilence ..).trans (view_recordReceipt p (at_ f s))
  have hquiet := portLaw_of_view hview hs
  unfold receiveSymbol
  dsimp only
  split
  · have hslot : (countSlot p (restartSilence p (recordReceipt p (at_ f s)))).PortLaw := by
      unfold countSlot
      split
      · exact portLaw_of_view (view_countEdge ..) hquiet
      · exact hquiet
    split
    · exact portLaw_of_view (view_takeHold ..) hslot
    · exact portLaw_of_view (view_takeGo ..) hslot
    · exact takeFramer_keepsPorts hslot
  · split
    · rename_i hst
      refine countFill_keepsPorts ?_ hquiet
      exact (congrArg (fun v : PortIx → PortView => (v p).1) (view_restartSilence p (recordReceipt p (at_ f s)))).trans hst
    · exact portLaw_of_view (view_recordReceipt p (at_ f s)) hs

theorem receiveParcel_keepsPorts {p : PortIx} {x : Inbound} {f : Fraction} {s : State} (hs : s.PortLaw) :
    (receiveParcel p x f s).PortLaw := by
  unfold receiveParcel
  dsimp only
  split
  · exact arrive_keepsPorts (portLaw_of_view ((view_restartSilence ..).trans (view_recordReceipt p (at_ f s))) hs)
  · exact hs

theorem receiveOrder_keepsPorts {c : OrderCode} {o : Origin} {ident : Byte} {args : List Byte} {f : Fraction} {s : State}
    (hs : s.PortLaw) : (receiveOrder c o ident args f s).PortLaw := by
  unfold receiveOrder
  split
  · exact receiveParcel_keepsPorts hs
  · dsimp only
    split
    · exact takeOrder_keepsPorts hs
    · exact hs

/-! ### Service port, setup store and power keep the port law (R162, R168, R169, R171) -/

theorem takeByte_keepsPorts {b : Byte} {s : State} (hs : s.PortLaw) : (takeByte b s).PortLaw := by
  unfold takeByte
  split
  · split
    · exact hs
    · split
      · exact hs
      · exact hs
  · dsimp only
    split
    · unfold judgeSend
      split
      · split
        · exact takeOrder_keepsPorts hs
        · exact hs
      · exact hs
    · exact hs
  · exact hs
  · exact hs

theorem view_answerRunning (o : Origin) (c : OrderCode) (s : State) : (answerRunning o c s).portView = s.portView := by
  unfold answerRunning
  split
  · split
    · exact view_answer ..
    · rfl
  · rfl

theorem view_completeWrite (s : State) : (completeWrite s).portView = s.portView := by
  unfold completeWrite
  split
  · split
    · exact view_answerRunning ..
    · rfl
  · rfl

theorem view_completeClear (s : State) : (completeClear s).portView = s.portView := by
  unfold completeClear
  split
  · split
    · exact view_answerRunning ..
    · rfl
  · rfl

theorem perPort_get {α : Type} (f : Nat → α) (p : PortIx) : (perPort f)[p] = f p := by
  fin_cases p <;> rfl

theorem view_completeFetch (s : State) : (completeFetch s).portView = s.portView := by
  unfold completeFetch
  split
  · dsimp only
    split
    · exact view_modOrigin ..
    · rfl
  · rfl

theorem view_fillerOut (s : State) : (fillerOut s).portView = s.portView := by
  unfold fillerOut
  split <;> rfl

theorem powerOn_keepsPorts (present : BitVec 12) (wires : BitVec 4) (s : State) : (powerOn present wires s).PortLaw := by
  intro p
  have hp : (powerOn present wires s).ports[p] =
      Port.powerOn (present.getLsbD p) (loadFlag s.setup.words[1] p true) := perPort_get _ p
  have ho : (powerOn present wires s).origins[p] = none := Vector.getElem_replicate ..
  have hd : (powerOn present wires s).delays[p] = .initial := Vector.getElem_replicate ..
  unfold State.PortLawAt
  rw [hp, ho, hd]
  unfold Port.powerOn
  dsimp only
  split <;> exact ⟨rfl, rfl, rfl, rfl, rfl, rfl, Nat.zero_le _⟩

theorem view_rest (s : State) : (rest s).portView = s.portView := by
  have hegress := view_each (f := fun p => modEgress p (fun e => { e with flight := none })) (fun _ _ => rfl) allPorts
  have hpins := view_each (f := fun i => modPin i (fun x => { x with pulse := none })) (fun _ _ => rfl) allPins
  have hservice : ∀ f (u : State), (modService f u).portView = u.portView := fun _ _ => rfl
  unfold rest
  rw [hservice, hpins, hegress]
  rfl

end Sys2Proof.Machine
end

section
namespace Sys2Proof.Machine

/-! ### Every step keeps the port law (R26, R54, R154) -/

theorem event_keepsView {f : State → State} {s t : State} (hf : ∀ u : State, (f u).portView = u.portView)
    (hs : s.PortLaw) (h : event f s = .next t) : t.PortLaw :=
  event_keepsPorts (fun u hu => portLaw_of_view (hf u) hu) hs h

theorem takeBytes_keepsPorts {bytes : List Byte} {s : State} (hs : s.PortLaw) : (takeBytes bytes s).PortLaw := by
  unfold takeBytes
  exact each_induct (P := State.PortLaw) (fun _ _ _ hu => takeByte_keepsPorts hu) s hs

theorem takeFetch_keepsPorts {s : State} (hs : s.PortLaw) : (takeFetch s).PortLaw := by
  unfold takeFetch
  split
  · exact takeByte_keepsPorts hs
  · exact hs

theorem exec_keepsPorts {i : Instr} {s t : State} (hs : s.PortLaw) (h : exec i s = .next t) : t.PortLaw := by
  cases i with
  | powerOn present wires => exact Host.Outcome.next.inj h ▸ powerOn_keepsPorts present wires s
  | resetnLow => exact Host.Outcome.next.inj h ▸ portLaw_of_view (view_rest s) hs
  | presenceChange p level held =>
    refine event_keepsPorts (fun u hu => completeFilter_keepsPorts (portLaw_of_view ?_ hu)) hs h
    exact view_modPort ⟨rfl, rfl, rfl, rfl, rfl⟩
  | receivedSymbol p symbol f => exact event_keepsPorts (fun _ hu => receiveSymbol_keepsPorts hu) hs h
  | hold p f | go p f => exact event_keepsPorts (fun _ hu => receiveSymbol_keepsPorts hu) hs h
  | silence p => exact event_keepsPorts (fun _ hu => takeSilence_keepsPorts hu) hs h
  | freeBoundary p second | beatLaunch p second | echoLaunch p second | triggerLaunch p second
  | noticeReplyLaunch p second | samplesLaunch p second => exact event_keepsView (view_boundary _ p second) hs h
  | samplesTail p => exact event_keepsView (view_tailSamples p) hs h
  | drainEnd st => exact event_keepsView (view_settleDrain .drainReply st) hs h
  | farewellQueued p => exact event_keepsView (view_queueFarewell p) hs h
  | farewellTail p => exact event_keepsPorts (fun _ hu => tailFarewell_keepsPorts hu) hs h
  | echoBack p number x f => exact event_keepsPorts (fun _ hu => receiveParcel_keepsPorts hu) hs h
  | echoAnswerExpiry p => exact event_keepsPorts (fun _ hu => expireEcho_keepsPorts hu) hs h
  | beatDue => exact event_keepsPorts (fun _ hu => dueBeat_keepsPorts hu) hs h
  | enterActive p => exact event_keepsPorts (fun _ hu => admitPort_keepsPorts hu) hs h
  | joinLimitExpiry p => exact event_keepsPorts (fun _ hu => expireJoin_keepsPorts hu) hs h
  | holdLimitExpiry p => exact event_keepsView (view_expireHold p) hs h
  | startBeat st => exact event_keepsView (f := startStream st) (fun _ => rfl) hs h
  | orphanHoldExpiry st => exact event_keepsView (view_expireOrphan st) hs h
  | drainDeadlineExpiry st => exact event_keepsView (view_expireDrain st) hs h
  | stagedAlteration t => exact event_keepsView (view_applyStaged t) hs h
  | holdoverExpiry => exact event_keepsView view_expireHoldover hs h
  | refinEdge f => exact event_keepsView (fun u => view_takeRefinEdge (at_ f u)) hs h
  | refinAbsence => exact event_keepsView view_takeRefinAbsence hs h
  | comparison f => exact event_keepsView (fun u => view_compareEdge (at_ f u)) hs h
  | edgeAbsence => exact event_keepsView view_takeEdgeAbsence hs h
  | samplesInbound p tag sequence count stamp payload =>
    exact event_keepsPorts (fun _ hu => receiveParcel_keepsPorts hu) hs h
  | triggerInbound p line stamp f => exact event_keepsPorts (fun _ hu => receiveParcel_keepsPorts hu) hs h
  | pinEdge pin level => exact event_keepsView (view_samplePin pin level) hs h
  | pinFire pin => exact event_keepsView (view_firePin pin) hs h
  | pulseEnd pin => exact event_keepsView (view_endPulse pin) hs h
  | join o ident args f | detach o ident args f | resetLink o ident args f | readLink o ident args f
  | proposeReference o ident args f | withdrawReference o ident args f | readTimebase o ident args f
  | openStream o ident args f | closeStream o ident args f | findStream o ident args f | readStream o ident args f
  | addTap o ident args f | alterTap o ident args f | dropTap o ident args f | setLine o ident args f
  | subscribeLine o ident args f | unsubscribeLine o ident args f | readLine o ident args f | setPin o ident args f
  | readPin o ident args f | readStore o ident args f | setParam o ident args f | setupRead o ident args f
  | setupWrite o ident args f | setupClear o ident args f | restartHub o ident args f =>
    exact event_keepsPorts (fun _ hu => receiveOrder_keepsPorts hu) hs h
  | setupWriteCompletion => exact event_keepsView view_completeWrite hs h
  | setupClearCompletion => exact event_keepsView view_completeClear hs h
  | restartCompletion => exact event_keepsPorts (fun _ hu => tryComplete_keepsPorts hu) hs h
  | replyPlacement o => exact event_keepsView (view_modOrigin o .placeReply) hs h
  | send bytes f => exact event_keepsPorts (fun u hu => takeBytes_keepsPorts (s := at_ f u) hu) hs h
  | fetch f => exact event_keepsPorts (fun u hu => takeFetch_keepsPorts (s := at_ f u) hu) hs h
  | fetchCompletion => exact event_keepsView view_completeFetch hs h
  | chipSelectRising => exact event_keepsView (f := endTransaction) (fun _ => rfl) hs h
  | fillerByteShiftedOut => exact event_keepsView view_fillerOut hs h

/-- Settles O10: every command keeps the law port by port, and a cycle of the clock touches no port. -/
theorem stepKeepsPorts : Obligations.StepKeepsPorts := by
  intro s t hs h
  unfold step at h
  split at h
  · obtain rfl := Host.Outcome.next.inj h
    unfold tick
    split
    · exact hs
    · exact hs
  · rename_i c rest _
    have hrest : ({ s with pending := rest } : State).PortLaw := hs
    exact exec_keepsPorts hrest h

end Sys2Proof.Machine
end

section
namespace Sys2Proof.Machine

/-! ### An order of a free origin reaches its owning rule (R154, R155, R160) -/

section
variable {o : Origin} {ident : Byte} {c : OrderCode} {args : List Byte} {f : Fraction} {s : State}

/-- The origin of a free slot holds a queue, with no order in its slot and no REPLY. -/
theorem slotFree_iff : s.slotFree o = true ↔ s.atRest = false ∧ s.restarting = false ∧
    ∃ q, s.origin o = some q ∧ q.slot = none ∧ q.hasReply = false := by
  unfold State.slotFree State.inService
  cases s.origin o with
  | none => simp
  | some q => simp [and_assoc]

theorem orderTaken_origin : (orderTaken o f s).origin = s.origin := by cases o <;> rfl

theorem orderTaken_streams : (orderTaken o f s).streams = s.streams := by cases o <;> rfl
theorem orderTaken_drainSets : (orderTaken o f s).drainSets = s.drainSets := by cases o <;> rfl
theorem orderTaken_origins : (orderTaken o f s).origins = s.origins := by cases o <;> rfl
theorem orderTaken_service : (orderTaken o f s).service = s.service := by cases o <;> rfl
theorem orderTaken_taps : (orderTaken o f s).taps = s.taps := by cases o <;> rfl
theorem orderTaken_tb : (orderTaken o f s).tb = s.tb := by cases o <;> rfl
theorem orderTaken_settings : (orderTaken o f s).settings = s.settings := by cases o <;> rfl
theorem orderTaken_delays : (orderTaken o f s).delays = s.delays := by cases o <;> rfl
theorem orderTaken_restarting : (orderTaken o f s).restarting = s.restarting := by cases o <;> rfl
theorem orderTaken_posts : (orderTaken o f s).posts = [] := by cases o <;> rfl

theorem orderTaken_state (q : PortIx) : ((orderTaken o f s).ports[q]).state = (s.ports[q]).state := by
  cases o with
  | port p => exact parcelTaken_state q
  | service => rfl

theorem orderTaken_frame (q : PortIx) : ((orderTaken o f s).ports[q]).frame = (s.ports[q]).frame := by
  cases o with
  | port p =>
    simp only [orderTaken, parcelTaken, modPort_port]
    split
    · subst_vars; rfl
    · rfl
  | service => rfl

theorem command_order : exec (c.command o ident args f) s = event (receiveOrder c o ident args f) s := by cases c <;> rfl

/-- An order that passes the shared tests is decided by its owning rule, RUNNING in the slot (R155). -/
theorem order_runs (hs : s.slotFree o = true) (hst : s.stateAllows o c = true) (hr : s.rightsAllow o c = true)
    (hl : args.length ≤ 32) :
    exec (c.command o ident args f) s =
      .next (finish s (ownOrder c o args (running o ident c (orderTaken o f s)))) := by
  obtain ⟨hrest, -, q, hq, hslot, -⟩ := slotFree_iff.mp hs
  have hallow : (orderTaken o f s).stateAllows o c = true := by
    cases o with
    | port p => unfold State.stateAllows at hst ⊢; dsimp only at hst ⊢; rw [orderTaken_state]; exact hst
    | service => rfl
  have hright : (orderTaken o f s).rightsAllow o c = true := by
    unfold State.rightsAllow at hr ⊢; rw [orderTaken_settings]; exact hr
  have htake : takeOrder o ident c.byte args (orderTaken o f s) =
      ownOrder c o args (running o ident c (orderTaken o f s)) := by
    have hq' : (orderTaken o f s).origin o = some q := by rw [orderTaken_origin]; exact hq
    simp only [takeOrder, hq', hslot, Option.isSome_none, Bool.false_eq_true, if_false, ofByte_byte, decideOrder, hallow,
      Bool.not_true, hright]
    rfl
  rw [command_order, event_running hrest]
  congr 2
  cases o with
  | port p =>
    have hstate : (s.ports[p]).state.framerRuns = true ∧ (s.ports[p]).state ≠ .training := by
      unfold State.stateAllows at hst
      dsimp only at hst
      split at hst
      · rename_i h; rw [h]; exact ⟨rfl, by decide⟩
      · rename_i h; rw [h]; exact ⟨rfl, by decide⟩
      · exact Bool.noConfusion hst
    have hin : (Inbound.order ident c.byte args).inRange = true := decide_eq_true hl
    have hne : ¬ ((parcelTaken p f s).ports[p]).state = .training := by rw [parcelTaken_state]; exact hstate.2
    rw [← htake]
    unfold receiveOrder
    dsimp only
    rw [receiveParcel_running hstate.1 hin]
    simp only [dispatch, hne, if_false]
    rfl
  | service =>
    rw [← htake]
    simp only [receiveOrder, hl, if_true]
    rfl

/-- An order in service from an ACTIVE port, or from S, passes the test of the port state (R155). -/
theorem ready_iff : s.ready o = true ↔ s.slotFree o = true ∧ ∀ p, o = .port p → (s.ports[p]).state = .active := by
  unfold State.ready
  cases o with
  | port p => simp
  | service => simp

theorem stateAllows_of_ready (hs : s.ready o = true) : s.stateAllows o c = true := by
  obtain ⟨-, ha⟩ := ready_iff.mp hs
  cases o with
  | port p => simp only [State.stateAllows, ha p rfl]
  | service => rfl

/-- The orders that only S may give, or that a frame may give only by leave of S (R160). -/
theorem rightsAllow_of (hc : c ∉ [.setLine, .setPin, .restartHub, .setParam, .setupWrite, .setupClear]) :
    s.rightsAllow o c = true := by
  cases o with
  | service => rfl
  | port p =>
    cases c with
    | setLine | setPin | restartHub | setParam | setupWrite | setupClear => simp at hc
    | join | detach | resetLink | readLink | proposeReference | withdrawReference | readTimebase | openStream | closeStream
    | findStream | readStream | addTap | alterTap | dropTap | subscribeLine | unsubscribeLine | readLine | readPin
    | readStore | setupRead => rfl

theorem ready_runs (hs : s.ready o = true) (hr : s.rightsAllow o c = true) (hl : args.length ≤ 32) :
    exec (c.command o ident args f) s =
      .next (finish s (ownOrder c o args (running o ident c (orderTaken o f s)))) :=
  order_runs (ready_iff.mp hs).1 (stateAllows_of_ready hs) hr hl

end

/-! ### The answer of an order, and the end of its event (R155, R156) -/

section
variable {o : Origin} {ident : Byte} {c : OrderCode} {r : ResultCode} {b : List Byte}

theorem answer_running {u : State} {q : OriginState} (hq : u.origin o = some q) :
    answer o r b (running o ident c u) =
      post o .reply (modOrigin o (fun q => { q with slot := some ⟨ident, c.byte, some (r, b)⟩ }) u) := by
  have hslot : ((running o ident c u).origin o).bind (·.slot) = some ⟨ident, c.byte, none⟩ := by
    rw [running, modOrigin_origin, if_pos rfl, hq]; rfl
  rw [answer, answerAs_running hslot, running, modOrigin_modOrigin]

/-- An event that only answers the order of a free origin ends with its reply at the tail of the queue. -/
theorem answered_ends {s u : State} (hs : s.slotFree o = true) (hst : u.streams = s.streams)
    (hsel : u.tb.selected = s.tb.selected)
    (hp : ∀ q : PortIx, (u.ports[q]).state = .leaving → (s.ports[q]).state = .leaving)
    (hd : u.drainSets = s.drainSets) (ho : u.origins = s.origins) (hv : u.service = s.service)
    (hx : u.posts = []) (hres : u.restarting = s.restarting) :
    finish s (answer o r b (running o ident c u)) = replied o ident c r b u := by
  obtain ⟨-, hres0, q, hq, -, hrep⟩ := slotFree_iff.mp hs
  have huq : u.origin o = some q := by
    rw [← hq]; cases o with
    | port p => simp only [State.origin, ho]
    | service => simp only [State.origin, hv]
  rw [answer_running huq, finish_replied hst hsel hp hd ho hx (fun q => by exact ⟨Nat.le_refl _, rfl⟩) (hres.trans hres0)]
  refine modOrigin_congr huq ?_
  have hr' : OriginState.hasReply { q with slot := some ⟨ident, c.byte, some (r, b)⟩ } = false := hrep
  simp only [OriginState.placeReply, hr', Bool.false_eq_true, if_false]

/-- An order that its owning rule answers at once, without another effect. -/
theorem ready_answered {s : State} {args : List Byte} {f : Fraction} (hs : s.slotFree o = true)
    (hst : s.stateAllows o c = true) (hr : s.rightsAllow o c = true) (hl : args.length ≤ 32)
    (ha : ownOrder c o args (running o ident c (orderTaken o f s)) = answer o r b (running o ident c (orderTaken o f s))) :
    exec (c.command o ident args f) s = .next (replied o ident c r b (orderTaken o f s)) := by
  rw [order_runs hs hst hr hl, ha]
  refine congrArg Host.Outcome.next (answered_ends hs orderTaken_streams (by rw [orderTaken_tb])
    (fun q hq => ?_) orderTaken_drainSets orderTaken_origins orderTaken_service orderTaken_posts orderTaken_restarting)
  rwa [orderTaken_state] at hq

end

end Sys2Proof.Machine
end

section
namespace Sys2Proof.Machine

/-! ### JOIN (R26, R27, R41) -/

/-- The mask of the admission epoch rounds down to a multiple of 16. -/
theorem roundDown_toNat (x : BitVec 32) : (x &&& 0xFFFFFFF0).toNat = x.toNat / 16 * 16 := by
  have hmask : ∀ i : Fin 32, (0xFFFFFFF0 : BitVec 32).getLsbD i = decide (4 ≤ i.val) := by decide
  have h : x &&& (0xFFFFFFF0 : BitVec 32) = x >>> 4 <<< 4 := by
    refine BitVec.eq_of_getLsbD_eq fun i hi => ?_
    rw [BitVec.getLsbD_and, hmask ⟨i, hi⟩, BitVec.getLsbD_shiftLeft, BitVec.getLsbD_ushiftRight]
    by_cases h4 : 4 ≤ i
    · simp [hi, h4, Nat.not_lt.mpr h4, Nat.add_sub_cancel' h4]
    · simp [h4, Nat.not_le.mp h4]
  rw [h, BitVec.toNat_shiftLeft, BitVec.toNat_ushiftRight, Nat.shiftRight_eq_div_pow, Nat.shiftLeft_eq]
  have := x.isLt
  exact Nat.mod_eq_of_lt (by omega)

/-- The admission epoch is a multiple of 16, 4 to 19 beats ahead (R27). -/
theorem admissionEpoch_ahead (beat : Beat) : (admissionEpoch beat).toNat % 16 = 0 ∧
    4 ≤ (admissionEpoch beat - beat).toNat ∧ (admissionEpoch beat - beat).toNat ≤ 19 := by
  have he : (admissionEpoch beat).toNat = (beat + 19).toNat / 16 * 16 := roundDown_toNat _
  have hadd : (beat + 19).toNat = (beat.toNat + 19) % 4294967296 := BitVec.toNat_add ..
  have hb := beat.isLt
  have hsub : (admissionEpoch beat - beat).toNat =
      (4294967296 - beat.toNat + (admissionEpoch beat).toNat) % 4294967296 := BitVec.toNat_sub ..
  omega

theorem registered_iff (s : State) (id : BitVec 32) : s.registered id = true ↔ ∃ q, s.frameId q = some id := by
  simp only [State.registered, List.any_eq_true, beq_iff_eq, mem_allPorts, true_and]

/-- What JOIN is decided on is read in the state in which the order is RUNNING. -/
theorem running_frameId (p q : PortIx) (ident : Byte) (c : OrderCode) (f : Fraction) (s : State) :
    (running (.port p) ident c (orderTaken (.port p) f s)).frameId q = s.frameId q :=
  congrArg (Option.map Frame.id) (orderTaken_frame (o := .port p) q)

/-- The end of an event that answers a port's order and posts S one notice. -/
theorem flush_reply_notice {p : PortIx} {k : NoticeKind} {b : List Byte} {s : State} (hr : s.restarting = false)
    (hx : s.posts = [⟨.port p, .reply⟩, ⟨.service, .notice k b⟩]) :
    flush s = noticed .service k b (modOrigin (.port p) .placeReply { s with posts := [] }) := by
  unfold flush
  simp only [hr, hx, Bool.false_eq_true, if_false]
  cases k <;> rfl

/-- An event that answers a port's order and tells S of one notice ends with both placed; `v` holds what is besides. -/
theorem finish_answer_notice {s t v : State} {p : PortIx} {q : OriginState} {ident : Byte} {c : OrderCode}
    {r : ResultCode} {b bytes : List Byte} {k : NoticeKind}
    (ht : ({ t with posts := [] } : State) = modOrigin (.port p) (fun q => { q with slot := some ⟨ident, c.byte, some (r, b)⟩ }) v)
    (hx : t.posts = [⟨.port p, .reply⟩, ⟨.service, .notice k bytes⟩])
    (hq : v.origin (.port p) = some q) (hrep : q.hasReply = false) (hst : v.streams = s.streams)
    (hsel : v.tb.selected = s.tb.selected)
    (hp : ∀ q : PortIx, (v.ports[q]).state = .leaving → (s.ports[q]).state = .leaving) (hd : v.drainSets = s.drainSets)
    (ho : v.origins = s.origins) (hres : v.restarting = false) :
    finish s t = replied (.port p) ident c r b (noticed .service k bytes v) := by
  have hplaced : modOrigin (.port p) .placeReply
      (modOrigin (.port p) (fun q => { q with slot := some ⟨ident, c.byte, some (r, b)⟩ }) v) =
      replied (.port p) ident c r b v := by
    rw [modOrigin_modOrigin]
    refine modOrigin_congr hq ?_
    have hrep' : OriginState.hasReply { q with slot := some ⟨ident, c.byte, some (r, b)⟩ } = false := hrep
    simp only [OriginState.placeReply, hrep', Bool.false_eq_true, if_false]
  have htst : t.streams = v.streams := (congrArg State.streams ht :)
  have htsel : t.tb = v.tb := (congrArg State.tb ht :)
  have htres : t.restarting = v.restarting := (congrArg State.restarting ht :)
  rw [finish_flush (sameFifos_of_eq (htst.trans hst)) (by rw [htsel]; exact hsel) fun q h => ?_,
    flush_reply_notice (htres.trans hres) hx, ht, hplaced]
  · rfl
  · have hv : (modOrigin (.port p) (fun q => { q with slot := some ⟨ident, c.byte, some (r, b)⟩ }) v).mayPark q = true := by
      rw [← ht]; exact h
    exact mayPark_of (hp q) hd ho (mayPark_modOrigin (o := .port p) (fun q => by exact ⟨Nat.le_refl _, rfl⟩) hv)

/-- Settles O48, from the arithmetic of the epoch and the two branches of the owning rule. -/
theorem joinAdmits : Obligations.JoinAdmits := by
  have hallows : ∀ {p : PortIx} {s : State}, (s.ports[p]).state = .joining ∨ (s.ports[p]).state = .active →
      s.stateAllows (.port p) .join = true := fun {p s} h => by
    simp only [State.stateAllows]
    rcases h with h | h
    · simp only [h]; rfl
    · simp only [h]
  refine ⟨admissionEpoch_ahead, fun p ident args f s hs hst hl hbad => ?_, fun p ident args f s hs hl hintent => ?_⟩
  · refine ready_answered hs (hallows hst) rfl hl ?_
    simp only [ownOrder, ownJoin, hbad, if_true]
    rfl
  · intro frame u epoch
    have hgood : ¬ (args.length ≠ 6 ∨ 1 < field args 5 1) := by omega
    have hstate : ((running (.port p) ident .join u).ports[p]).state = (s.ports[p]).state :=
      orderTaken_state (o := .port p) p
    have hreg : (running (.port p) ident .join u).registered frame.id = true ↔ ∃ q, s.frameId q = some frame.id := by
      rw [registered_iff]
      exact exists_congr fun q => by
        rw [show (running (.port p) ident .join u).frameId q = s.frameId q from running_frameId p q ident .join f s]
    refine ⟨fun hst hfree => ?_, fun hst => ?_⟩
    · have hnew : ¬ (((running (.port p) ident .join u).ports[p]).state ≠ .joining ∨
          (running (.port p) ident .join u).registered frame.id = true) := by
        rw [hreg, hstate]
        rintro (h | ⟨q, h⟩)
        · exact h hst
        · exact hfree q h
      obtain ⟨-, hres, q, hq, -, hrep⟩ := slotFree_iff.mp hs
      have huq : u.origin (.port p) = some q := hq
      have hown : ownOrder .join (.port p) args (running (.port p) ident .join u) =
          moveTo p .admitted .joined (modPort p (fun x => { x with frame := some frame, epoch := some epoch })
            (answer (.port p) .done (s.joinResult p epoch) (running (.port p) ident .join u))) := by
        simp only [ownOrder, ownJoin, hgood, if_false]
        rw [if_neg hnew]
        rfl
      have hport : ∀ q : PortIx, ((modPort p (fun x => { x with
          state := .admitted, frame := some frame, epoch := some epoch, joinDeadline := none }) u).ports[q]).state = .leaving →
          (s.ports[q]).state = .leaving := fun q h => by
        rw [modPort_port] at h
        split at h
        · cases h
        · rwa [parcelTaken_state] at h
      let v := modPort p (fun x => { x with
        state := .admitted, frame := some frame, epoch := some epoch, joinDeadline := none }) u
      have hj : (u.ports[p]).state = .joining := hstate.trans hst
      refine (order_runs (c := .join) hs (hallows (.inl hst)) rfl (by omega)).trans (congrArg Host.Outcome.next ?_)
      refine (congrArg (finish s) hown).trans (finish_answer_notice (v := v) ?_ ?_ hq hrep rfl rfl hport rfl rfl hres)
      · rw [answer_running huq]
        simp only [moveTo, enterState, postPortEvent, postNotice, post, modPort, modOrigin, vget_set, if_true,
          Vector.set_set, v]
        rfl
      · rw [answer_running huq]
        simp only [moveTo, enterState, postPortEvent, postNotice, post, modPort, modOrigin, vget_set, if_true, hj]
        rfl
    · refine ready_answered hs (hallows (hst.imp And.left id)) rfl (by omega) ?_
      have hold : ((running (.port p) ident .join u).ports[p]).state ≠ .joining ∨
          (running (.port p) ident .join u).registered frame.id = true := by
        rw [hreg, hstate]
        rcases hst with ⟨-, h⟩ | h
        · exact .inr h
        · exact .inl (by rw [h]; decide)
      simp only [ownOrder, ownJoin, hgood, if_false]
      exact if_pos hold

end Sys2Proof.Machine
end

section
namespace Sys2Proof.Machine

/-! ### A steady measurement at the gate (R30, R56, R57) -/

/-- What a steady measurement leaves: the estimate, the run of missing echoes, the rejections counted (R30, R56, R57). -/
def State.measured (u : State) (p : PortIx) (e : Estimate) (rejects : Nat) : State :=
  u |> modDelay p (fun d => { d with outstanding := none, estimate := some e })
    |> modPort p (fun y => { y with
        missRun := 0, counters := { y.counters with echoRejects := satAdd y.counters.echoRejects rejects } })

/-- All that the gate can do to an answered exchange. -/
theorem gateSteady_eq {p : PortIx} {m : BitVec 16} {u : State} {e : Estimate} (he : (u.delays[p]).estimate = some e) :
    gateSteady p m (modDelay p (fun d => { d with outstanding := none }) u) =
      if 3 ≤ e.rejects then u.measured p (e.accept u.settings.promptCount m) 0
      else if u.settings.gate < ((m.toNat : Int) - e.value.toNat).natAbs then
        u.measured p { e with rejects := e.rejects + 1 } 1
      else u.measured p (e.accept u.settings.promptCount (e.tracked u.settings.slew m)) 0 := by
  have he' : ((modPort p (fun x => { x with missRun := 0 })
      (modDelay p (fun d => { d with outstanding := none }) u)).delays[p]).estimate = some e := by
    simp only [modPort_delays, modDelay_delays, vget_set, if_true, he]
  have hset : ∀ e' : Estimate, modDelay p (fun d => { d with estimate := some e' })
      (modPort p (fun x => { x with missRun := 0 }) (modDelay p (fun d => { d with outstanding := none }) u)) =
      u.measured p e' 0 := fun e' => by
    simp only [State.measured, satAdd_zero, modDelay, modPort, vget_set, if_true, Vector.set_set]
  unfold gateSteady
  simp only [he', modPort_settings, modDelay_settings]
  by_cases hr : 3 ≤ e.rejects
  · simp only [hr, if_true, hset]
  · by_cases hg : u.settings.gate < ((m.toNat : Int) - e.value.toNat).natAbs
    · simp only [hr, hg, if_true, if_false, hset]
      simp only [countEchoReject, countPort, State.measured, modPort_modPort, satAdd_zero]
    · simp only [hr, hg, if_false, hset]

/-- An ECHO-BACK that answers the outstanding steady echo in time is a measurement (R46, R48). -/
theorem takeEchoBack_steady {p : PortIx} {h : BitVec 24} {u : State} {x : Echo} {m : BitVec 16}
    (hx : (u.delays[p]).outstanding = some x) (hp : x.purpose = .steady) (hpass : passed u.now x.deadline = false)
    (hm : measure (u.now - x.sent).toNat h u.settings.asymmetry[p] = .valid m) :
    takeEchoBack p x.number h u = gateSteady p m (modDelay p (fun d => { d with outstanding := none }) u) := by
  have hpassed : u.echoPassed p = false := by simp only [State.echoPassed, hx, hpass]
  have hm' : measure (u.now - x.sent).toNat h
      (modDelay p (fun d => { d with outstanding := none }) u).settings.asymmetry[p] = .valid m := hm
  simp only [takeEchoBack, hpassed, Bool.false_eq_true, if_false, matchEchoBack, hx, if_true, hp, hm, endExchange]

/-- The estimate in STEADY moves towards the measurement by at most the slew, and stays a delay (R57). -/
theorem tracked_steady {e : Estimate} (h : e.mode = .steady) (slew : Nat) (m : BitVec 16) :
    ((e.tracked slew m).toNat : Int) =
      e.value.toNat + max (-(slew : Int)) (min ((m.toNat : Int) - e.value.toNat) slew) := by
  have hm := m.isLt
  have hv := e.value.isLt
  simp only [Estimate.tracked, h, clampInt, BitVec.toNat_ofInt]
  omega

/-- Settles O31, from what the gate does to the state in which the parcel has arrived. -/
theorem steadyMeasurement : Obligations.SteadyMeasurement := by
  intro p h f s x e m hrest hf hx hp he u hpass hm gap accepted after
  have hu : (u.delays[p]).estimate = some e := he
  have hquiet : ∀ e' n, finish s (u.measured p e' n) = u.measured p e' n := fun e' n => by
    refine finish_untouched rfl rfl (fun q hq => ?_) rfl rfl rfl
    rw [State.measured, modPort_state rfl, modDelay_ports, parcelTaken_state] at hq
    exact hq
  have hrun : exec (.echoBack p x.number h f) s =
      .next (finish s (gateSteady p m (modDelay p (fun d => { d with outstanding := none }) u))) := by
    have hstep : exec (.echoBack p x.number h f) s = event (receiveParcel p (.echoBack x.number h) f) s := rfl
    rw [hstep, event_running hrest, receiveParcel_running hf rfl]
    simp only [dispatch]
    rw [takeEchoBack_steady (u := u) hx hp hpass hm]
  have haccept : ∀ v, e.accept s.settings.promptCount v = accepted v := fun v => by
    unfold Estimate.accept
    cases hmode : e.mode <;> simp [accepted, hmode]
  have hgate : u.settings.gate < ((m.toNat : Int) - e.value.toNat).natAbs ↔ (s.settings.gate : Int) < |gap| := by
    rw [Int.abs_eq_natAbs]; exact Int.ofNat_lt.symm
  rw [hrun, gateSteady_eq hu]
  refine ⟨fun hr => ?_, fun hr hg => ?_, fun hr hg hmode => ?_, fun hr hg hmode => ⟨e.tracked s.settings.slew m,
    tracked_steady hmode _ _, ?_⟩⟩ <;> refine congrArg Host.Outcome.next ?_
  · rw [if_pos hr, hquiet, ← haccept]; rfl
  · rw [if_neg (Nat.not_le.mpr hr), if_pos (hgate.mpr hg), hquiet]; rfl
  · rw [if_neg (Nat.not_le.mpr hr), if_neg fun hlt => not_lt.mpr hg (hgate.mp hlt), hquiet, ← haccept]
    simp only [Estimate.tracked, hmode]
    rfl
  · rw [if_neg (Nat.not_le.mpr hr), if_neg fun hlt => not_lt.mpr hg (hgate.mp hlt), hquiet, ← haccept]; rfl

end Sys2Proof.Machine
end

section
namespace Sys2Proof.Machine

/-! ### Tables read out in the order of their entries -/

theorem toList_allPorts {α : Type} (v : Vector α 12) : v.toList = allPorts.map (fun p => v[p]) := by
  refine List.ext_getElem (by simp [allPorts]) fun i h1 h2 => ?_
  simp [allPorts]

theorem toList_allPins {α : Type} (v : Vector α 4) : v.toList = allPins.map (fun i => v[i]) := by
  refine List.ext_getElem (by simp [allPins]) fun i h1 h2 => ?_
  simp [allPins]

theorem bit_succ (b : Bool) (i : Nat) : bit b (i + 1) = 2 * bit b i := by cases b <;> simp [bit, pow_succ, mul_comm]

/-- A mask is the sum of its bits. -/
theorem maskOf_eq (l : List Bool) : maskOf l = ((l.zipIdx).map (fun x => bit x.1 x.2)).sum := by
  have key : ∀ (l : List Bool) (k : Nat), ((l.zipIdx (k + 1)).map (fun x => bit x.1 x.2)).sum =
      2 * ((l.zipIdx k).map (fun x => bit x.1 x.2)).sum := by
    intro l
    induction l with
    | nil => intro k; rfl
    | cons b l ih => intro k; simp only [List.zipIdx_cons, List.map_cons, List.sum_cons, ih, bit_succ]; ring
  induction l with
  | nil => rfl
  | cons b l ih =>
    have hcons : maskOf (b :: l) = 2 * maskOf l + bit b 0 := rfl
    rw [hcons, ih, List.zipIdx_cons, List.map_cons, List.sum_cons, key, Nat.add_comm]

theorem maskOf_ports (v : Vector Bool 12) : maskOf v.toList = (allPorts.map (fun p => bit v[p] p.val)).sum := by
  rw [maskOf_eq, toList_allPorts]
  rfl

/-! ### What an order reads is what stands in the tables (R43, R81, R89, R117, R141, R152, R167) -/

section
variable {o : Origin} {ident : Byte} {c : OrderCode} {u : State}

theorem running_ports : (running o ident c u).ports = u.ports := modOrigin_ports ..
theorem running_delays : (running o ident c u).delays = u.delays := modOrigin_delays ..
theorem running_streams : (running o ident c u).streams = u.streams := modOrigin_streams ..
theorem running_taps : (running o ident c u).taps = u.taps := modOrigin_taps ..
theorem running_store : (running o ident c u).store = u.store := modOrigin_store ..
theorem running_tb : (running o ident c u).tb = u.tb := modOrigin_tb ..
theorem running_settings : (running o ident c u).settings = u.settings := modOrigin_settings ..
theorem running_setup : (running o ident c u).setup = u.setup := modOrigin_setup ..
theorem running_pins : (running o ident c u).pins = u.pins := modOrigin_pins ..
theorem running_lines : (running o ident c u).lines = u.lines := modOrigin_lines ..
theorem running_now : (running o ident c u).now = u.now := by simp only [State.now, running, modOrigin_clock]

end

theorem orderTaken_lines {o : Origin} {f : Fraction} {s : State} : (orderTaken o f s).lines = s.lines := by cases o <;> rfl
theorem orderTaken_pins {o : Origin} {f : Fraction} {s : State} : (orderTaken o f s).pins = s.pins := by cases o <;> rfl
theorem orderTaken_store {o : Origin} {f : Fraction} {s : State} : (orderTaken o f s).store = s.store := by cases o <;> rfl
theorem orderTaken_setup {o : Origin} {f : Fraction} {s : State} : (orderTaken o f s).setup = s.setup := by cases o <;> rfl

theorem index?_of_val {n x : Nat} {i : Fin n} (h : x = i.val) : index? n x = some i := by
  subst h; exact dif_pos i.isLt

theorem index?_none {n x : Nat} (h : n ≤ x) : index? n x = none := dif_neg (Nat.not_lt.mpr h)

/-- The delay estimate that a reader finds (R54). -/
theorem estimateOf_toNat (s : State) (p : PortIx) :
    (s.estimateOf p).toNat = (((s.delays[p]).estimate).map (·.value.toNat)).getD 0 := by
  unfold State.estimateOf
  cases (s.delays[p]).estimate <;> rfl

/-- Class and rank that READ TIMEBASE gives of the reference (R81). -/
def State.referenceRead (s : State) : Candidacy := match s.tb.selected with
  | some (.port p) => (s.tb.candidates[p]).getD ⟨0, 0⟩
  | some .refin => if s.settings.refinEnable && s.tb.refinActive then ⟨s.settings.refinClass, 0⟩ else ⟨0, 0⟩
  | none => ⟨0, 0⟩

theorem referenceRead_spec (s : State) :
    s.classOf s.tb.selected = s.referenceRead.cls ∧ s.rankOf s.tb.selected = s.referenceRead.rank := by
  unfold State.classOf State.rankOf State.referenceRead
  rcases s.tb.selected with _ | _ | p
  · exact ⟨rfl, rfl⟩
  · simp only [Option.bind_some, State.candidacy]
    split <;> exact ⟨rfl, rfl⟩
  · simp only [Option.bind_some, State.candidacy]
    cases s.tb.candidates[p] <;> exact ⟨rfl, rfl⟩

end Sys2Proof.Machine
end

section
namespace Sys2Proof.Machine

/-! ### The orders that read (R43, R81, R89, R117, R141, R152, R167) -/

section
variable {o : Origin} {ident : Byte} {args : List Byte} {f : Fraction} {s : State}

/-- An order of a ready origin that is answered at once with `b`. -/
theorem read_answered {c : OrderCode} {r : ResultCode} {b : List Byte} (hs : s.ready o = true)
    (hc : c ∉ [.setLine, .setPin, .restartHub, .setParam, .setupWrite, .setupClear]) (hl : args.length ≤ 32)
    (ha : ownOrder c o args (running o ident c (orderTaken o f s)) = answer o r b (running o ident c (orderTaken o f s))) :
    exec (c.command o ident args f) s = .next (replied o ident c r b (orderTaken o f s)) :=
  ready_answered (ready_iff.mp hs).1 (stateAllows_of_ready hs) (rightsAllow_of hc) hl ha

theorem linkResult_running (p : PortIx) (c : OrderCode) (u : State) :
    (running o ident c u).linkResult p = u.linkResult p := by
  simp only [State.linkResult, State.estimateOf, running_ports, running_delays, running_settings]

theorem timebaseResult_running (c : OrderCode) (u : State) : (running o ident c u).timebaseResult = u.timebaseResult := by
  have hcand : (running o ident c u).candidacy = u.candidacy := by
    funext x; cases x <;> simp only [State.candidacy, running_settings, running_tb]
  simp only [State.timebaseResult, State.classOf, State.rankOf, State.timebaseDetail, hcand, running_settings, running_tb,
    running_now]

theorem storeResult_running (c : OrderCode) (u : State) : (running o ident c u).storeResult = u.storeResult := by
  simp only [State.storeResult, State.floorSum, State.streamsCounted, running_store, running_streams]

/-- The bytes of READ TIMEBASE, entry by entry. -/
theorem timebaseResult_eq (u : State) : u.timebaseResult =
    be 8 u.now.toNat ++ be 4 u.tb.beat.toNat ++ be 1 (64 * u.tb.state.code + u.tb.beatExp) ++ be 1 (sourceCode u.tb.selected)
      ++ be 1 (16 * u.referenceRead.cls + u.referenceRead.rank)
      ++ beInt 2 u.tb.trim ++ beInt 2 u.tb.pull ++ beInt 2 u.tb.savedTrim
      ++ be 1 (bit u.settings.refinEnable 0 + bit u.tb.refinActive 1 + bit u.tb.refinFailed 2 + 16 * u.settings.refinClass)
      ++ allPorts.flatMap (fun p => be 1 (match u.tb.candidates[p] with
        | some c => 128 + 16 * c.cls + c.rank
        | none => 0))
      ++ be 2 ((allPorts.map (fun p => bit u.tb.failed[p] p.val)).sum) ++ u.timebaseDetail
      ++ [u.tb.locks, u.tb.unlocks, u.tb.acquisitionFailures, u.tb.holdoverExpiries].flatMap (fun n => be 2 n.toNat) := by
  obtain ⟨hcls, hrank⟩ := referenceRead_spec u
  have hcand : u.tb.candidates.toList.flatMap (fun c => be 1 ((c.map (fun c => 128 + c.packed)).getD 0)) =
      allPorts.flatMap (fun p => be 1 (match u.tb.candidates[p] with
        | some c => 128 + 16 * c.cls + c.rank
        | none => 0)) := by
    rw [toList_allPorts, List.flatMap_map]
    refine List.flatMap_congr fun p _ => ?_
    cases u.tb.candidates[p] with
    | none => rfl
    | some c => simp only [Option.map_some, Option.getD_some, Candidacy.packed, Nat.add_assoc]
  simp only [State.timebaseResult, hcls, hrank, hcand, maskOf_ports]

/-- The bytes of READ STREAM, part 0. -/
theorem recordResult_eq (r : Stream) :
    let b : Baseline := r.baseline.getD ⟨0, 0, 0⟩
    let deadline : Option Beat := match r.state with
      | .draining => r.drainDeadline
      | .orphaned => r.orphanDeadline
      | _ => none
    r.recordResult = be 1 r.state.code ++ be 1 ((r.producer.map (·.val)).getD 15) ++ be 4 r.frameId.toNat ++ [r.tag]
      ++ be 1 r.width ++ be 2 r.spp ++ be 3 r.period ++ be 2 r.depth ++ be 1 r.priority
      ++ be 4 r.startBeat.toNat ++ be 1 (bit r.baseline.isSome 0 + bit r.resumeMark 1 + bit r.eased 2)
      ++ be 2 b.expected.toNat ++ be 8 b.stamp.toNat ++ be 2 b.count.toNat ++ be 2 r.fifo.length
      ++ be 4 ((deadline.map (·.toNat)).getD 0) ++ be 1 (match r.closeBy with
        | some (.port p) => p.val
        | some .service => 12
        | none => 15) := by
  intro b deadline
  have hclose : originCode r.closeBy = (match r.closeBy with
      | some (.port p) => p.val
      | some .service => 12
      | none => 15) := rfl
  unfold Stream.recordResult
  rw [hclose]
  simp only [b, deadline]
  cases r.baseline <;> rfl

/-- The bytes of READ STREAM, part 1. -/
theorem tapListResult_eq (u : State) (r : Stream) : u.tapListResult r =
    be 1 r.taps.length ++ (r.taps.flatMap (fun v => ((u.taps[v]).map (fun x => be 1 x.consumer.val ++ [x.tag])).getD (be 2 0))
      ++ be 12 0).take 12
    ++ [r.counters.accepted, r.counters.dropped, r.counters.stale, r.counters.slip, r.counters.early,
        r.counters.late].flatMap (fun n => be 2 n.toNat) := by
  have hentries : r.taps.flatMap (fun t => match u.taps[t] with
      | some x => be 1 x.consumer.val ++ [x.tag]
      | none => be 2 0) =
      r.taps.flatMap (fun v => ((u.taps[v]).map (fun x => be 1 x.consumer.val ++ [x.tag])).getD (be 2 0)) :=
    List.flatMap_congr fun t _ => by cases u.taps[t] <;> rfl
  have hzero : List.replicate 12 (0 : Byte) = be 12 0 := by decide
  unfold State.tapListResult
  rw [← hentries, ← hzero] <;> rfl

theorem linkResult_eq (p : PortIx) (u : State) :
    let x := u.ports[p]
    let e := (u.delays[p]).estimate
    let flags := bit x.presence 0 + bit u.settings.enable[p] 1 + bit x.held 2 + bit x.frame.isSome 3
      + bit ((x.frame.map (·.intent)).getD false) 4 + bit x.epoch.isSome 5 + bit e.isSome 6
      + bit (e.map (·.mode) == some .steady) 7
    u.linkResult p = be 1 x.state.code ++ be 1 flags ++ be 2 x.score ++ be 1 x.failures
      ++ be 4 ((x.frame.map (·.id.toNat)).getD 0) ++ be 1 ((x.frame.map (·.cls.toNat)).getD 0)
      ++ be 4 ((x.epoch.map (·.toNat)).getD 0) ++ be 2 ((e.map (·.value.toNat)).getD 0)
      ++ [x.counters.listenRestarts, x.counters.trainingFailures, x.counters.checkFailures, x.counters.stray,
          x.counters.malformed, x.counters.echoRejects, x.counters.missedEchoes, x.counters.holds,
          x.counters.shedEvents, x.counters.triggerOverruns].flatMap (fun n => be 2 n.toNat) := by
  simp only [State.linkResult, estimateOf_toNat, PortCounters.bytes]

/-- READ LINK of a port: the bytes of its record. -/
theorem readLink_done {p : PortIx} (hs : s.ready o = true) (hl : args.length = 1) (hp : field args 0 1 = p.val) :
    exec (.readLink o ident args f) s =
      .next (replied o ident .readLink .done ((orderTaken o f s).linkResult p) (orderTaken o f s)) := by
  have hport : port? (field args 0 1) = some p := index?_of_val hp
  refine read_answered (c := .readLink) hs (by decide) (by omega) ?_
  simp only [ownOrder, ownReadLink, hl, ne_eq, not_true_eq_false, if_false, hport, linkResult_running]

theorem modStore_origin (g : Store → Store) (u : State) : (modStore g u).origin o = u.origin o := by cases o <;> rfl

theorem modStore_modOrigin (g : Store → Store) (h : OriginState → OriginState) (u : State) :
    modStore g (modOrigin o h u) = modOrigin o h (modStore g u) := by cases o <;> rfl

theorem modStore_answer {c : OrderCode} {r : ResultCode} {b : List Byte} {g : Store → Store} {u : State} {q : OriginState}
    (hq : u.origin o = some q) :
    modStore g (answer o r b (running o ident c u)) = answer o r b (running o ident c (modStore g u)) := by
  rw [answer_running hq, answer_running ((modStore_origin g u).trans hq), ← modStore_modOrigin]
  rfl

/-- READ STORE answers with the mark as it stood, and then lowers it to the free blocks (R117). -/
theorem readStore_done (hs : s.ready o = true) :
    exec (.readStore o ident [] f) s = .next (modStore (fun v => { v with lowWater := v.free.length })
      (replied o ident .readStore .done (orderTaken o f s).storeResult (orderTaken o f s))) := by
  have hfree := (ready_iff.mp hs).1
  refine (order_runs (c := .readStore) hfree (stateAllows_of_ready hs) (rightsAllow_of (by decide)) (Nat.zero_le _)).trans ?_
  obtain ⟨-, -, q, hq, -, -⟩ := slotFree_iff.mp hfree
  refine congrArg Host.Outcome.next ?_
  simp only [ownOrder, ownReadStore, List.length_nil, ne_eq, not_true_eq_false, if_false, storeResult_running]
  rw [modStore_answer ((congrFun orderTaken_origin o).trans hq)]
  have hends := answered_ends (o := o) (ident := ident) (c := .readStore) (r := .done)
    (b := (orderTaken o f s).storeResult)
    (u := modStore (fun v => { v with lowWater := v.free.length }) (orderTaken o f s)) hfree
    orderTaken_streams (congrArg Timebase.selected orderTaken_tb)
    (fun p hp => (congrArg (· = PortState.leaving) (orderTaken_state p)).mp hp) orderTaken_drainSets
    orderTaken_origins orderTaken_service orderTaken_posts orderTaken_restarting
  rw [hends]
  exact (modStore_modOrigin _ _ _).symm

theorem readStream_eq {st : StreamIx} {r : Stream} (hs : s.ready o = true) (hl : args.length = 2)
    (hst : field args 0 1 = st.val) (hr : s.streams[st] = some r) :
    (field args 1 1 = 0 → exec (.readStream o ident args f) s =
      .next (replied o ident .readStream .done r.recordResult (orderTaken o f s))) ∧
    (field args 1 1 = 1 → exec (.readStream o ident args f) s =
      .next (replied o ident .readStream .done (s.tapListResult r) (orderTaken o f s))) ∧
    (1 < field args 1 1 → exec (.readStream o ident args f) s =
      .next (replied o ident .readStream .badArg [] (orderTaken o f s))) := by
  have hstream : stream? (field args 0 1) = some st := index?_of_val hst
  have hrec : (running o ident .readStream (orderTaken o f s)).streams[st] = some r := by
    rw [running_streams, orderTaken_streams]; exact hr
  have htaps : (running o ident .readStream (orderTaken o f s)).tapListResult r = s.tapListResult r := by
    simp only [State.tapListResult, running_taps, orderTaken_taps]
  refine ⟨fun hpart => ?_, fun hpart => ?_, fun hpart => ?_⟩ <;>
    refine read_answered (c := .readStream) hs (by decide) (by omega) ?_ <;>
    simp only [ownOrder, ownReadStream, hl, ne_eq, not_true_eq_false, if_false, hstream, hrec]
  · rw [if_pos hpart]
  · rw [if_neg (by omega), if_pos hpart, htaps]
  · rw [if_neg (by omega), if_neg (by omega)]; rfl

theorem tableReads : Claims.TableReads := by
  intro o ident args f s hs u
  have hset : u.settings = s.settings := orderTaken_settings
  have hdel : u.delays = s.delays := orderTaken_delays
  have htb : u.tb = s.tb := orderTaken_tb
  refine ⟨?_, fun hl hp => ?_, ?_, fun ha => ?_, fun hl hst => ?_,
    fun hl st hst => ⟨fun hr => ?_, fun r hr => ⟨?_, ?_, ?_⟩⟩⟩
  · intro hl p hp x e flags
    rw [readLink_done hs hl hp, linkResult_eq p u]
    simp only [e, flags, x, hset, hdel]
    rfl
  · have hport : port? (field args 0 1) = none := index?_none hp
    refine read_answered (c := .readLink) hs (by decide) (by omega) ?_
    simp only [ownOrder, ownReadLink, hl, ne_eq, not_true_eq_false, if_false, hport]
    rfl
  · intro ha x reference detail
    subst ha
    have hread : u.referenceRead = reference := by
      simp only [State.referenceRead, htb, hset]; rfl
    have hdetail : u.timebaseDetail = detail := by
      simp only [State.timebaseDetail, htb, hset]; rfl
    have hown : exec (.readTimebase o ident [] f) s = .next (replied o ident .readTimebase .done u.timebaseResult u) := by
      refine read_answered (c := .readTimebase) hs (by decide) (Nat.zero_le _) ?_
      simp only [ownOrder, ownReadTimebase, List.length_nil, ne_eq, not_true_eq_false, if_false, timebaseResult_running, u]
    rw [hown, timebaseResult_eq, hread, hdetail, htb, hset] <;> rfl
  · subst ha
    rw [readStore_done hs]
    simp only [State.storeResult, State.floorSum, State.streamsCounted, u, orderTaken_store, orderTaken_streams]
  · have hstream : stream? (field args 0 1) = none := index?_none hst
    refine read_answered (c := .readStream) hs (by decide) (by omega) ?_
    simp only [ownOrder, ownReadStream, hl, ne_eq, not_true_eq_false, if_false, hstream]
    rfl
  · have hstream : stream? (field args 0 1) = some st := index?_of_val hst
    have hrec : (running o ident .readStream (orderTaken o f s)).streams[st] = none := by
      rw [running_streams, orderTaken_streams]; exact hr
    refine read_answered (c := .readStream) hs (by decide) (by omega) ?_
    simp only [ownOrder, ownReadStream, hl, ne_eq, not_true_eq_false, if_false, hstream, hrec]
    rfl
  · intro hpart b deadline
    rw [(readStream_eq hs hl hst hr).1 hpart, recordResult_eq] <;> rfl
  · intro hpart entries c
    rw [(readStream_eq hs hl hst hr).2.1 hpart, tapListResult_eq]
  · exact (readStream_eq hs hl hst hr).2.2


theorem lineResult_running (l : LineIx) (c : OrderCode) (u : State) : (running o ident c u).lineResult l = u.lineResult l := by
  simp only [State.lineResult, running_lines, running_pins]

theorem pinResult_running (i : PinIx) (c : OrderCode) (u : State) : (running o ident c u).pinResult i = u.pinResult i := by
  simp only [State.pinResult, State.pulseTicks, running_pins, running_now]

/-- The pins that subscribe to a line, as READ LINE gives them. -/
theorem maskOf_pins (v : Vector Pin 4) (l : LineIx) : maskOf (v.toList.map (·.subscribes l)) =
    bit ((v[(0 : PinIx)]).subscribes l) 0 + bit ((v[(1 : PinIx)]).subscribes l) 1
      + bit ((v[(2 : PinIx)]).subscribes l) 2 + bit ((v[(3 : PinIx)]).subscribes l) 3 := by
  rw [maskOf_eq, toList_allPins]
  simp [allPins, List.finRange, Nat.add_assoc]

theorem lineResult_eq (u : State) (l : LineIx) :
    let x := u.lines[l]
    let pins := bit ((u.pins[(0 : PinIx)]).subscribes l) 0 + bit ((u.pins[(1 : PinIx)]).subscribes l) 1
      + bit ((u.pins[(2 : PinIx)]).subscribes l) 2 + bit ((u.pins[(3 : PinIx)]).subscribes l) 3
    u.lineResult l = be 2 x.latency ++ be 2 x.holdoff ++ be 2 (maskOf x.subscribers.toList) ++ be 1 (pins + bit x.last.isSome 7)
      ++ be 8 ((x.last.map (·.toNat)).getD 0) ++ [x.pendingMerged] ++ be 2 x.accepted.toNat ++ be 2 x.merged.toNat
      ++ be 2 x.late.toNat := by
  simp only [State.lineResult, maskOf_pins]

/-- A pulse of a pin lasts while ticks of it are left (R151). -/
def Pin.left (x : Pin) (now : Stamp) : Nat := match x.pulse with
  | some q => q.stop.toNat - now.toNat
  | none => 0

theorem pulseAt_isSome (x : Pin) (now : Stamp) : (x.pulseAt now).isSome = decide (0 < x.left now) := by
  unfold Pin.pulseAt Pin.left
  cases x.pulse with
  | none => rfl
  | some q => simp [Option.filter, apply_ite Option.isSome]

theorem pulseTicks_eq (u : State) (x : Pin) : u.pulseTicks x = min ((x.left u.now + 255) / 256) 255 := by
  unfold State.pulseTicks Pin.pulseAt Pin.left
  cases x.pulse with
  | none => simp
  | some q =>
    by_cases h : u.now.toNat < q.stop.toNat
    · simp [Option.filter, h]
    · have h0 : q.stop.toNat - u.now.toNat = 0 := by omega
      simp [Option.filter, h, h0]

theorem level_eq (x : Pin) (now : Stamp) :
    x.level now = if x.mode = .output then (decide (0 < x.left now)) != (x.polarity == 1) else x.wire := by
  unfold Pin.level
  cases x.mode <;> simp [pulseAt_isSome]

theorem pinResult_eq (u : State) (i : PinIx) :
    let x := u.pins[i]
    let c := x.counters
    let left := x.left u.now
    let level : Bool := if x.mode = .output then (decide (0 < left)) != (x.polarity == 1) else x.wire
    u.pinResult i = be 1 (bit level 0 + 2 * x.mode.code + 8 * x.polarity + bit (decide (0 < left)) 5)
      ++ be 1 (x.line.val + 32 * x.fires.length) ++ be 1 x.width ++ be 1 (min ((left + 255) / 256) 255)
      ++ (x.fires.flatMap (fun g => be 8 g.toNat) ++ be 32 0).take 32
      ++ [c.edges, c.fires, c.mergedFires, c.lateFires, c.overruns].flatMap (fun n => be 2 n.toNat) := by
  have hzero : List.replicate 32 (0 : Byte) = be 32 0 := by decide
  simp only [State.pinResult, level_eq, pulseTicks_eq, pulseAt_isSome, hzero]

theorem recordReads : Claims.RecordReads := by
  intro o ident args f s hs hlen u
  have hlines : u.lines = s.lines := orderTaken_lines
  have hpins : u.pins = s.pins := orderTaken_pins
  have hset : (running o ident .setupRead u).setup = s.setup := running_setup.trans orderTaken_setup
  refine ⟨fun hbad => ?_, ?_, fun hbad => ?_, ?_, ?_⟩
  · refine read_answered (c := .readLine) hs (by decide) hlen ?_
    simp only [ownOrder, ownReadLine]
    rcases hbad with hl | hl
    · split
      · rfl
      · rw [if_pos hl]; rfl
    · rw [show line? (field args 0 1) = none from index?_none hl]; rfl
  · intro hl l hfield x pins
    have hline : line? (field args 0 1) = some l := index?_of_val hfield
    refine read_answered (c := .readLine) hs (by decide) hlen ?_
    simp only [ownOrder, ownReadLine, hline, hl, ne_eq, not_true_eq_false, if_false]
    rw [lineResult_running, lineResult_eq]
    simp only [x, pins, ← hlines, ← hpins, u]
  · refine read_answered (c := .readPin) hs (by decide) hlen ?_
    simp only [ownOrder, ownReadPin]
    rcases hbad with hl | hl
    · split
      · rfl
      · rw [if_pos hl]; rfl
    · rw [show pin? (field args 0 1) = none from index?_none hl]; rfl
  · intro hl i hfield x c left level
    have hpin : pin? (field args 0 1) = some i := index?_of_val hfield
    refine read_answered (c := .readPin) hs (by decide) hlen ?_
    simp only [ownOrder, ownReadPin, hpin, hl, ne_eq, not_true_eq_false, if_false]
    rw [pinResult_running, pinResult_eq]
    have hx : (orderTaken o f s).pins[i] = x := congrArg (fun v => v[i]) hpins
    simp only [hx]
    rfl
  · intro first count
    refine ⟨fun hbad => ?_, fun hl hc1 hc2 hc3 => ⟨fun hop => ?_, fun hop => ?_⟩⟩ <;>
      refine read_answered (c := .setupRead) hs (by decide) hlen ?_ <;>
      simp only [ownOrder, ownSetupRead]
    · rw [if_pos hbad]; rfl
    · rw [if_neg (by omega), hset, if_pos (Option.isSome_iff_ne_none.mpr hop)]; rfl
    · rw [if_neg (by omega), hset, hop]; rfl

/-- Settles O52: each read order answers the bytes of its record, and leaves the state as the order's take does. -/
theorem readOrders : Obligations.ReadOrders := ⟨tableReads, recordReads⟩

end

end Sys2Proof.Machine
end

section
namespace Sys2Proof.Machine

/-! ### A port goes out of service in an event of its own (R19, R22, R35, R39) -/

/-- What an event that takes one port out of service and nothing else leaves, before it ends. -/
structure PortOut (p : PortIx) (s u : State) : Prop where
  streams : u.streams = s.streams.map (Option.map (Stream.forgets (.port p)))
  origins : u.origins = s.origins.set p none
  drainSets : u.drainSets = s.drainSets.set p []
  ports : ∀ q : PortIx, q ≠ p → u.ports[q] = s.ports[q]
  selected : u.tb.selected = s.tb.selected

theorem sameFifos_forgets {o : Origin} {s u : State} (h : u.streams = s.streams.map (Option.map (Stream.forgets o))) :
    sameFifos s u := fun st => by
  rw [h, vget_map, Option.map_map]
  exact Option.map_congr fun r _ => by simp only [Function.comp_apply, Stream.forgets]; split <;> rfl

/-- Such an event ends with what it posted. -/
theorem PortOut.finish {p : PortIx} {s u : State} (h : PortOut p s u) (hp : (u.ports[p]).state ≠ .leaving) :
    Machine.finish s u = flush u := by
  refine finish_flush (sameFifos_forgets h.streams) h.selected fun q hq => ?_
  by_cases hqp : q = p
  · subst hqp
    simp [State.mayPark, hp, -Fin.getElem_fin] at hq
  · simpa only [State.mayPark, h.ports q hqp, h.drainSets, h.origins, vget_set, hqp, if_false] using hq

theorem PortOut.told {p : PortIx} {s u : State} {k : NoticeKind} {b : List Byte} (h : PortOut p s u)
    (hp : (u.ports[p]).state ≠ .leaving) (hr : u.restarting = false) (hx : u.posts = [⟨.service, .notice k b⟩]) :
    Machine.finish s u = noticed .service k b { u with posts := [] } :=
  (h.finish hp).trans (flush_notice hr hx)

/-- A state of an event in which only the record of the port, time and the transmitter have changed. -/
theorem portOut_withPortOut {p : PortIx} {st : PortState} {cause : PortCause} {s w : State} (hs : w.streams = s.streams)
    (ho : w.origins = s.origins) (hd : w.drainSets = s.drainSets) (hp : ∀ q : PortIx, q ≠ p → w.ports[q] = s.ports[q])
    (ht : w.tb.selected = s.tb.selected) : PortOut p s (w.withPortOut p st cause) where
  streams := congrArg (fun v : Vector (Option Stream) 64 => v.map _) hs
  origins := congrArg (fun v : Vector (Option OriginState) 12 => v.set p none) ho
  drainSets := congrArg (fun v : Vector (List StreamIx) 12 => v.set p []) hd
  ports q hq := by simp only [State.withPortOut, vget_set, hq, if_false, hp q hq]
  selected := ht

/-- A port that enters VACANT, LISTENING or FAULTED in an event of its own: the event ends with the PORT EVENT placed. -/
theorem finish_moveTo {p : PortIx} {st : PortState} {cause : PortCause} {s : State} {g : Port → Port}
    (h : st = .vacant ∨ st = .listening ∨ st = .faulted) (hr : s.restarting = false) :
    finish s (moveTo p st cause (modPort p g (begin_ s))) = noticed .service .portEvent
      (portEventFields p (g s.ports[p]).state st cause (g s.ports[p]).frame)
      { (modPort p g (begin_ s)).withPortOut p st cause with posts := [] } ∧
    (finish s (moveTo p st cause (modPort p g (begin_ s)))).HoldsNothing p := by
  rw [moveTo_out h]
  refine ⟨?_, holdsNothing_finish h⟩
  refine (portOut_withPortOut (s := s) (w := modPort p g (begin_ s)) rfl rfl rfl
    (fun q hq => by simp only [modPort, vget_set, hq, if_false]; rfl) rfl).told ?_ hr ?_
  · simp only [State.withPortOut, vget_set, if_true, leaves_state]
    rcases h with rfl | rfl | rfl <;> decide
  · simp only [State.withPortOut, modPort, vget_set, if_true]; rfl

theorem noticed_service_origin (k : NoticeKind) (b : List Byte) (s : State) :
    (noticed .service k b s).service.origin = s.service.origin.placeNotice k b := rfl

/-- The record of a port that an event of its own took out of service. -/
theorem noticed_withPortOut_port {p : PortIx} {st : PortState} {cause : PortCause} {s : State} {k : NoticeKind} {b : List Byte} :
    (noticed .service k b { s.withPortOut p st cause with posts := [] }).ports[p] = (s.ports[p]).leaves st s.clock.cycle := by
  show (s.withPortOut p st cause).ports[p] = _
  simp only [State.withPortOut, vget_set, if_true]

/-! ### The join limit (R24, R25, R39) -/

theorem expireJoin_due {p : PortIx} {s : State} (hst : (s.ports[p]).state = .joining)
    (hd : (s.ports[p]).joinDeadline = some s.tb.beat) : expireJoin p (begin_ s) =
      moveTo p (s.ports[p]).afterFailure (if 3 ≤ (s.ports[p]).failures + 1 then .fault else .joinLimit)
        (modPort p (fun x => { x with failures := (s.ports[p]).failures + 1 }) (begin_ s)) := by
  have hdue : ((begin_ s).ports[p]).state = .joining ∧ ((begin_ s).ports[p]).joinDeadline = some (begin_ s).tb.beat := ⟨hst, hd⟩
  unfold expireJoin
  rw [if_pos hdue]
  unfold failAttempt Port.afterFailure
  by_cases h3 : 3 ≤ (s.ports[p]).failures + 1
  · have h3' : Config.failureLimit ≤ ((begin_ s).ports[p]).failures + 1 := h3
    simp only [h3, h3', if_true]; rfl
  · have h3' : ¬ Config.failureLimit ≤ ((begin_ s).ports[p]).failures + 1 := h3
    simp only [h3, h3', if_false]; rfl

/-- What a failed attempt leaves: the port's record is that of a port out of service, other ports stand. -/
theorem sameElsewhere_out {p : PortIx} {st : PortState} {cause : PortCause} {s : State} {g : Port → Port} {k : NoticeKind}
    {b : List Byte} (hc : (g s.ports[p]).counters = (s.ports[p]).counters) (hp : (g s.ports[p]).presence = (s.ports[p]).presence) :
    SameElsewhere p s (noticed .service k b { (modPort p g (begin_ s)).withPortOut p st cause with posts := [] }) := by
  have hport : ((modPort p g (begin_ s)).ports[p]) = g s.ports[p] := by simp only [modPort, vget_set, if_true]; rfl
  have hother : ∀ {α : Type} (l : Vector α 12) (a : α) (q : PortIx), q ≠ p → (l.set p a)[q] = l[q] := fun l a q hq => by
    rw [vget_set, if_neg hq]
  refine ⟨?_, ?_, ?_, ?_, fun q hq => ⟨?_, ?_, ?_⟩, ⟨rfl, rfl, rfl⟩, rfl, rfl, rfl⟩
  · rw [noticed_withPortOut_port, leaves_counters, hport, hc]
  · rw [noticed_withPortOut_port, leaves_presence, hport, hp]
  · show (((s.egress.set p _)[p]) : Egress).flight = _
    rw [vget_set, if_pos rfl]; rfl
  · show (((s.delays.set p _)[p]) : Delay).nextEcho = _
    rw [vget_set, if_pos rfl]; rfl
  · show ((s.ports.set p _).set p _)[q] = _
    rw [hother _ _ q hq, hother _ _ q hq]
  · exact hother _ _ q hq
  · exact hother _ _ q hq

theorem joinLimitExpiry : Claims.JoinLimitExpiry := by
  intro p s hs
  obtain ⟨hrest, hres⟩ : s.atRest = false ∧ s.restarting = false := by simpa [State.inService] using hs
  have hexec : exec (.joinLimitExpiry p) s = .next (finish s (expireJoin p (begin_ s))) := event_running hrest
  refine ⟨fun h => ?_, fun hst hd => ⟨_, hexec, ?_⟩⟩
  · have hnot : expireJoin p (begin_ s) = begin_ s :=
      if_neg fun hdue => h.elim (fun e => e hdue.1) fun e => e hdue.2
    rw [hexec, hnot]
    exact congrArg Host.Outcome.next (finish_untouched rfl rfl (fun _ => id) rfl rfl rfl)
  · beta_reduce
    intro faults
    have hafter : (s.ports[p]).afterFailure = if faults then PortState.faulted else .listening := by
      simp only [Port.afterFailure, faults, decide_eq_true_eq]
    have hcause : (if 3 ≤ (s.ports[p]).failures + 1 then PortCause.fault else .joinLimit) =
        if faults then PortCause.fault else .joinLimit := by
      simp only [faults, decide_eq_true_eq]
    have hout : (s.ports[p]).afterFailure = .vacant ∨ (s.ports[p]).afterFailure = .listening ∨
        (s.ports[p]).afterFailure = .faulted := by
      unfold Port.afterFailure; split
      · exact .inr (.inr rfl)
      · exact .inr (.inl rfl)
    rw [expireJoin_due hst hd]
    obtain ⟨hfin, hnothing⟩ := finish_moveTo (p := p) (s := s)
      (g := fun x => { x with failures := (s.ports[p]).failures + 1 })
      (cause := if 3 ≤ (s.ports[p]).failures + 1 then .fault else .joinLimit) hout hres
    refine ⟨?_, ?_, hnothing, ?_, ?_⟩
    · rw [hfin, noticed_withPortOut_port, leaves_state, hafter]
    · rw [hfin, noticed_withPortOut_port, (leaves_afterFailure _ _ _).1.1]
      simp only [modPort, vget_set, if_true]
    · rw [hfin]
      exact sameElsewhere_out rfl rfl
    · rw [hfin, noticed_service_origin, hafter, hcause]
      show s.service.origin.placeNotice .portEvent (portEventFields p (s.ports[p]).state _ _ _) = _
      rw [hst]

/-! ### The presence filter (R18, R19, R22) -/

section
variable {p : PortIx} {level : Bool} {held : Nat} {s : State}

/-- The record of a port behind a sample of its PRESENT pin. -/
def Port.sampled (level : Bool) (since : Nat) (x : Port) : Port := { x with pin := level, pinSince := since }

/-- Since when the PRESENT pin has held its level, a sample that says how long included (R18). -/
def State.heldSince (s : State) (p : PortIx) (held : Nat) : Nat := max (s.ports[p]).pinSince (s.clock.cycle - held)

theorem exec_presenceChange (hrest : s.atRest = false) : exec (.presenceChange p level held) s =
    .next (finish s (completeFilter p (modPort p (Port.sampled level (s.heldSince p held)) (begin_ s)))) := by
  refine (event_running (f := changePresence p level held) hrest).trans ?_
  have hsample : samplePresent p level held (begin_ s) = modPort p (Port.sampled level (s.heldSince p held)) (begin_ s) := by
    rw [samplePresent_eq]; exact modPort_congr rfl
  rw [changePresence, hsample]

theorem filterDue_sampled {since : Nat} : (modPort p (Port.sampled level since) (begin_ s)).filterDue p =
    (level != (s.ports[p]).presence && decide (1024 ≤ s.clock.cycle - since)) := by
  simp only [State.filterDue, State.pinHeld, modPort, vget_set, if_true]
  rfl

/-- A sample of a PRESENT pin that completes no change of the filtered presence. -/
theorem presenceChange_quiet (hrest : s.atRest = false)
    (h : s.clock.cycle - s.heldSince p held < 1024 ∨ (s.ports[p]).presence = level) : exec (.presenceChange p level held) s =
      .next (modPort p (Port.sampled level (s.heldSince p held)) (begin_ s)) := by
  have hdue : (modPort p (Port.sampled level (s.heldSince p held)) (begin_ s)).filterDue p = false := by
    rw [filterDue_sampled]
    rcases h with h | h
    · simp [Nat.not_le.mpr h]
    · simp [h, -Fin.getElem_fin]
  rw [exec_presenceChange hrest, completeFilter_of_not_due hdue]
  exact congrArg Host.Outcome.next (finish_untouched rfl rfl (fun q hq => (modPort_state rfl q).symm.trans hq) rfl rfl rfl)

/-- The state in which a sample has changed the filtered presence. -/
def State.filtered (s : State) (p : PortIx) (level : Bool) (held : Nat) : State :=
  modPort p (fun x => { x.sampled level (s.heldSince p held) with presence := level }) (begin_ s)

theorem filtered_port : (s.filtered p level held).ports[p] =
    { (s.ports[p]).sampled level (s.heldSince p held) with presence := level } := by
  simp only [State.filtered, modPort, vget_set, if_true]; rfl

/-- A sample that completes a change of the filtered presence. -/
theorem completeFilter_due (h : 1024 ≤ s.clock.cycle - s.heldSince p held) (hp : (s.ports[p]).presence = !level) :
    completeFilter p (modPort p (Port.sampled level (s.heldSince p held)) (begin_ s)) =
      if level then
        if (s.ports[p]).state = .vacant ∧ s.settings.enable[p] ∧ !s.restarting
        then moveTo p .listening .presence (s.filtered p level held) else s.filtered p level held
      else
        match (s.ports[p]).state with
        | .listening | .parked | .faulted => moveTo p .vacant .presence (s.filtered p level held)
        | _ => takeLoss p .presence (s.filtered p level held) := by
  have hdue : (modPort p (Port.sampled level (s.heldSince p held)) (begin_ s)).filterDue p = true := by
    rw [filterDue_sampled, hp]
    simp [h]
  have hport : (modPort p (Port.sampled level (s.heldSince p held)) (begin_ s)).ports[p] =
      (s.ports[p]).sampled level (s.heldSince p held) := by simp only [modPort, vget_set, if_true]; rfl
  have hset : modPort p (fun x => { x with presence := x.pin }) (modPort p (Port.sampled level (s.heldSince p held)) (begin_ s)) =
      s.filtered p level held := modPort_modPort ..
  unfold completeFilter
  simp only [hdue, Bool.not_true, Bool.false_eq_true, if_false, hport, hset]
  rfl

theorem filtered_state (q : PortIx) : ((s.filtered p level held).ports[q]).state = (s.ports[q]).state :=
  modPort_state (s := begin_ s) (f := fun x => { x.sampled level (s.heldSince p held) with presence := level }) rfl q

theorem filtered_eq : s.filtered p level held = modPort p (fun x => { x with presence := level })
    (modPort p (Port.sampled level (s.heldSince p held)) (begin_ s)) :=
  (modPort_modPort p (fun x => { x with presence := level }) (Port.sampled level (s.heldSince p held)) (begin_ s)).symm

theorem filtered_quiet : finish s (s.filtered p level held) = s.filtered p level held :=
  finish_untouched rfl rfl (fun q hq => (filtered_state q).symm.trans hq) rfl rfl rfl

end

/-- Settles O22: by whether the filter completes, the level, and the state of the port. -/
theorem presenceChange : Obligations.PresenceChange := by
  intro p level held s hs x since sampled out
  obtain ⟨hrest, hres⟩ : s.atRest = false ∧ s.restarting = false := by simpa [State.inService] using hs
  have hout : out = .next (finish s (completeFilter p (modPort p (Port.sampled level (s.heldSince p held)) (begin_ s)))) :=
    exec_presenceChange hrest
  refine ⟨presenceChange_quiet hrest, fun hlong hpres hlevel => ?_, fun hlong hpres hlevel => ?_⟩ <;>
    subst hlevel
  · have hdue := completeFilter_due (level := true) hlong hpres
    rw [if_pos rfl] at hdue
    refine ⟨fun hst hen => ⟨_, hout, ?_⟩, fun hidle => ?_⟩
    · rw [hdue, if_pos ⟨hst, hen, by rw [hres]; rfl⟩]
      obtain ⟨hfin, hnothing⟩ := finish_moveTo (p := p) (s := s) (st := .listening) (cause := .presence)
        (g := fun x => { x.sampled true (s.heldSince p held) with presence := true }) (.inr (.inl rfl)) hres
      refine ⟨?_, ?_, ?_, ?_, hnothing, ?_, ?_⟩ <;> rw [State.filtered, hfin]
      · rw [noticed_withPortOut_port]; rfl
      · rw [noticed_withPortOut_port, leaves_presence, ← State.filtered, filtered_port]
      · rw [noticed_withPortOut_port]; rfl
      · rw [noticed_withPortOut_port]; rfl
      · rw [dropCloses_eq]; rfl
      · rw [noticed_service_origin]
        show s.service.origin.placeNotice .portEvent (portEventFields p (s.ports[p]).state _ _ _) = _
        rw [hst]
        rfl
    · rw [hout, hdue, if_neg, filtered_quiet]
      · exact congrArg Host.Outcome.next filtered_eq
      · rintro ⟨hst, hen, -⟩
        exact hidle.elim (fun h => h hst) fun h => by rw [h] at hen; cases hen
  · have hdue := completeFilter_due (level := false) hlong hpres
    rw [if_neg (by decide)] at hdue
    refine ⟨fun hst => ?_, fun hst => ⟨_, hout, ?_⟩, fun hruns => ⟨_, hout, ?_⟩⟩
    · rw [hout, hdue, hst, show takeLoss p .presence (s.filtered p false held) = s.filtered p false held from ?_, filtered_quiet]
      · exact congrArg Host.Outcome.next filtered_eq
      · unfold takeLoss
        exact if_neg (by rw [filtered_state, show (s.ports[p]).state = _ from hst]; decide)
    · have hmove : completeFilter p (modPort p (Port.sampled false (s.heldSince p held)) (begin_ s)) =
          moveTo p .vacant .presence (s.filtered p false held) := by
        rw [hdue]; rcases hst with h | h | h <;> rw [h]
      obtain ⟨hfin, hnothing⟩ := finish_moveTo (p := p) (s := s) (st := .vacant) (cause := .presence)
        (g := fun x => { x.sampled false (s.heldSince p held) with presence := false }) (.inl rfl) hres
      rw [hmove]
      refine ⟨?_, ?_, ?_, hnothing, ?_⟩ <;> rw [State.filtered, hfin]
      · rw [noticed_withPortOut_port]; rfl
      · rw [noticed_withPortOut_port, leaves_presence, ← State.filtered, filtered_port]
      · rw [noticed_withPortOut_port]; rfl
      · exact noticed_service_origin ..
    · have hloss : completeFilter p (modPort p (Port.sampled false (s.heldSince p held)) (begin_ s)) =
          takeLoss p .presence (s.filtered p false held) := by
        have hnot : ∀ st : PortState, st.framerRuns = false → x.state ≠ st := fun st h e => by
          rw [e, h] at hruns; cases hruns
        rw [hdue]
        split
        · exact absurd ‹_› (hnot .listening rfl)
        · exact absurd ‹_› (hnot .parked rfl)
        · exact absurd ‹_› (hnot .faulted rfl)
        · rfl
      rw [hloss]
      obtain ⟨hlost, hports, -⟩ := takeLoss_lost (p := p) (cause := .presence) (w := s.filtered p false held) hrest
        ((lossFrom_begin p s).modPort (fun _ => rfl) fun _ => rfl) hruns
      have hpresence : ((finish s (takeLoss p .presence (s.filtered p false held))).ports[p]).presence = false := by
        rw [hports, vget_set, if_pos rfl, leaves_presence, filtered_port]
      refine ⟨hlost, ?_⟩
      have hstate := hlost.1
      rwa [hpresence] at hstate

end Sys2Proof.Machine
end

section
namespace Sys2Proof.Machine

/-! ### The end of a planned departure (R33, R35, R159) -/

section
variable {p : PortIx} {s : State} {q : OriginState}

/-- FAREWELL is queued in an empty queue that is not closed. -/
theorem placeNotice_farewell (hq : q.queue = []) (hc : q.closed = false) :
    { q.placeNotice .farewell [] with closed := true } = ⟨q.slot, [.notice .farewell q.lost []], 0, true⟩ := by
  simp [OriginState.placeNotice, hc, OriginState.notices, hq, Config.noticePlaces]

theorem exec_farewellQueued (hrest : s.atRest = false) :
    exec (.farewellQueued p) s = .next (finish s (queueFarewell p (begin_ s))) :=
  event_running (f := queueFarewell p) hrest

/-- Parking asks for the state LEAVING, for an empty drain set, and for an empty queue that is not closed. -/
theorem mayPark_iff (ho : s.origins[p] = some q) :
    s.mayPark p = true ↔ (s.ports[p]).state = .leaving ∧ s.drainSets[p] = [] ∧ q.queue = [] ∧ q.closed = false := by
  simp [State.mayPark, ho, -Fin.getElem_fin, and_assoc]

/-- Both parking conditions hold: FAREWELL is queued. -/
theorem farewellQueued_parks (hrest : s.atRest = false) (ho : s.origins[p] = some q) (hp : s.mayPark p = true) :
    exec (.farewellQueued p) s =
      .next ((begin_ s).withOrigin p ⟨q.slot, [.notice .farewell q.lost []], 0, true⟩) := by
  obtain ⟨-, -, hq, hc⟩ := (mayPark_iff ho).mp hp
  have hqueue : queueFarewell p (begin_ s) = (begin_ s).withOrigin p ⟨q.slot, [.notice .farewell q.lost []], 0, true⟩ := by
    have hp' : (begin_ s).mayPark p = true := hp
    have ho' : (begin_ s).origins[p] = some q := ho
    rw [queueFarewell, if_pos hp', ← placeNotice_farewell hq hc]
    simp only [modOrigin, ho', Option.map_some]
    rfl
  rw [exec_farewellQueued hrest, hqueue]
  refine congrArg Host.Outcome.next (finish_quiet (sameFifos_of_eq rfl) rfl (fun r hr => ?_) rfl)
  by_cases hrp : r = p
  · subst hrp; exact hp
  · rwa [mayPark_withOrigin_ne _ hrp] at hr

theorem farewellQueued_idle (hrest : s.atRest = false) (hp : s.mayPark p = false) :
    exec (.farewellQueued p) s = .next (begin_ s) := by
  have hqueue : queueFarewell p (begin_ s) = begin_ s := if_neg (by rw [show (begin_ s).mayPark p = _ from hp]; simp)
  rw [exec_farewellQueued hrest, hqueue]
  exact congrArg Host.Outcome.next (finish_untouched rfl rfl (fun _ => id) rfl rfl rfl)

end

theorem farewellQueued : Claims.FarewellQueued := by
  intro p s q hrest ho
  refine ⟨fun hst hd hq hc => farewellQueued_parks hrest ho ((mayPark_iff ho).mpr ⟨hst, hd, hq, hc⟩), fun h => ?_,
    fun second k lost fields hf hst hb hd hq hk hc => ?_⟩
  · refine farewellQueued_idle hrest (Bool.eq_false_iff.mpr fun hp => ?_)
    obtain ⟨hst, hd, hq, hc⟩ := (mayPark_iff ho).mp hp
    rcases h with h | h | h | h
    · exact h hst
    · exact h hd
    · exact h hq
    · rw [hc] at h; cases h
  · have hpick : s.pick p = some (.entry (.notice k lost fields)) := pick_entry ho hq (.inr (.inr (.inl ⟨hst, hb⟩)))
    have hpop := pop_notice hq
    have hkind : (Entry.notice k lost fields).isFarewell = false := by
      cases k
      case farewell => exact absurd rfl hk
      all_goals rfl
    rw [noticeReplyLaunch_last hrest hf ho hpick hst hd (by rw [hq]; simp) (by rw [hpop]) (by rw [hpop]; exact hc), hpop, hkind]
    rfl

/-! ### The TAIL of FAREWELL (R33, R35) -/

/-- A port that enters PARKED goes out of service with its fill run kept. -/
theorem moveTo_parked (p : PortIx) (cause : PortCause) (s : State) : moveTo p .parked cause s =
    modPort p (fun x => { x with fillRun := (s.ports[p]).fillRun }) (s.withPortOut p .parked cause) := by
  simp only [moveTo, enterState, outOfService, dropCloses_eq, modPort, modDelay, modEgress, emptyTriggers, modTriggers,
    setDrainSet, postPortEvent, postNotice, post, vget_set, if_true, Vector.set_set, State.withPortOut, Port.leaves]
  rfl

section
variable {p : PortIx} {s : State} {bytes : List Byte} {start : Nat}

/-- The state at the TAIL of a FAREWELL: its transmitter is free. -/
def State.farewellSent (s : State) (p : PortIx) (bytes : List Byte) (start : Nat) : State :=
  endFlight p (atStop ⟨.farewell, bytes, start⟩ (begin_ s))

theorem exec_farewellTail (hrest : s.atRest = false) (hf : (s.egress[p]).flight = some ⟨.farewell, bytes, start⟩)
    (hstop : start + bytes.length + 2 ≤ 2 * s.clock.cycle + 1) : exec (.farewellTail p) s =
      .next (finish s (if (s.ports[p]).state = .leaving then moveTo p .parked .farewell (s.farewellSent p bytes start)
        else s.farewellSent p bytes start)) := by
  have hf' : ((begin_ s).egress[p]).flight = some ⟨.farewell, bytes, start⟩ := hf
  have hsent : (begin_ s).tailSent ⟨.farewell, bytes, start⟩ = true := decide_eq_true hstop
  refine (event_running (f := tailFarewell p) hrest).trans ?_
  simp only [tailFarewell, hf', hsent, and_self, if_true]
  rfl

theorem farewellSent_flight : ((s.farewellSent p bytes start).egress[p]).flight = none := by
  simp only [State.farewellSent, endFlight, modEgress, vget_set, if_true]

/-- The state in which a departing port has parked. -/
def State.parked (s : State) (p : PortIx) (bytes : List Byte) (start : Nat) : State :=
  noticed .service .portEvent (portEventFields p (s.ports[p]).state .parked .farewell (s.ports[p]).frame)
    { modPort p (fun x => { x with fillRun := (s.ports[p]).fillRun })
        ((s.farewellSent p bytes start).withPortOut p .parked .farewell) with posts := [] }

theorem parked_port : (s.parked p bytes start).ports[p] = { s.ports[p] with
    frame := none, epoch := none, joinDeadline := none, held := false, holdBeats := 0, missRun := 0
    state := .parked, score := 0 } := by
  simp only [State.parked, noticed, modOrigin, modService, modPort, State.withPortOut, vget_set, if_true]
  rfl

/-- A LEAVING port parks with its FAREWELL sent, and S is told. -/
theorem farewellTail_parks (hres : s.restarting = false) :
    finish s (moveTo p .parked .farewell (s.farewellSent p bytes start)) = s.parked p bytes start := by
  have hout : PortOut p s ((s.farewellSent p bytes start).withPortOut p .parked .farewell) :=
    portOut_withPortOut rfl rfl rfl (fun _ _ => rfl) rfl
  have hmod : PortOut p s (modPort p (fun x => { x with fillRun := (s.ports[p]).fillRun })
      ((s.farewellSent p bytes start).withPortOut p .parked .farewell)) :=
    ⟨hout.streams, hout.origins, hout.drainSets, fun q hq => by
      simp only [modPort, vget_set, hq, if_false]; exact hout.ports q hq, hout.selected⟩
  rw [moveTo_parked]
  refine hmod.told ?_ hres rfl
  simp only [modPort, vget_set, if_true, State.withPortOut, leaves_state]
  decide

end

theorem farewellTail : Claims.FarewellTail := by
  intro p s bytes start hs hf hstop
  obtain ⟨hrest, hres⟩ : s.atRest = false ∧ s.restarting = false := by simpa [State.inService] using hs
  have hexec := exec_farewellTail hrest hf hstop
  refine ⟨fun hst => ?_, fun hst => ?_⟩
  · rw [if_pos hst, farewellTail_parks hres] at hexec
    refine ⟨_, hexec, ?_, ?_, ?_, ?_, ?_, fun q hq => ⟨?_, ?_⟩⟩
    · rw [parked_port]
    · unfold State.HoldsNothing
      rw [parked_port]
      simp only [State.parked, noticed, modOrigin, modService, modPort, State.withPortOut, vget_set, if_true, true_and, and_true]
      exact ⟨rfl, rfl, rfl, rfl, rfl⟩
    · simp only [State.parked, noticed, modOrigin, modService, modPort, State.withPortOut, vget_set, if_true]
      exact farewellSent_flight
    · simp only [State.frameId, parked_port, Option.map_none]
    · rw [← hst]; exact noticed_service_origin ..
    · simp only [State.parked, noticed, modOrigin, modService, modPort, State.withPortOut, vget_set, hq, if_false]; rfl
    · simp only [State.parked, noticed, modOrigin, modService, modPort, State.withPortOut, vget_set, hq, if_false]; rfl
  · rw [if_neg hst] at hexec
    have hquiet : finish s (s.farewellSent p bytes start) = s.farewellSent p bytes start :=
      finish_untouched rfl rfl (fun _ => id) rfl rfl rfl
    rw [hquiet] at hexec
    exact ⟨_, hexec, farewellSent_flight, rfl, rfl, rfl⟩

/-- Settles O28: FAREWELL queued by itself or within a launch, and its TAIL. -/
theorem farewell : Obligations.Farewell := ⟨farewellQueued, noticeReplyLaunch.2, farewellTail⟩

end Sys2Proof.Machine
end

section
namespace Sys2Proof.Machine

/-! ### A freed stream, a removed tap: what the end of an event keeps of them -/

theorem uOf_removeTap {t : TapIx} {st : StreamIx} {s : State} (h : s.uOf st = 0) : (removeTap t s).uOf st = 0 := by
  cases hx : s.taps[t] with
  | none => rwa [removeTap_none hx]
  | some x =>
    obtain ⟨sto, he⟩ := removeTap_some hx
    rw [he]
    simp only [State.uOf, vget_set] at h ⊢
    split
    · subst_vars
      cases hr : s.streams[x.stream] with
      | none => rfl
      | some r =>
        rw [hr] at h
        have hnil : r.fifo = [] := List.length_eq_zero_iff.mp h
        simp [Stream.u, Stream.loses, hnil, dropReferences_nil]
    · exact h

theorem uOf_modStream {f : Stream → Stream} (hf : ∀ r, (f r).u = r.u) (st a : StreamIx) (s : State) :
    (modStream a f s).uOf st = s.uOf st := by
  simp only [State.uOf, modStream, vget_set]
  split
  · subst_vars; cases s.streams[a] <;> simp [hf]
  · rfl

/-- A stream without blocks, DRAINING or FREE. -/
def State.drained (s : State) (st : StreamIx) : Prop := s.uOf st = 0 ∧ (s.stateOf st = some .draining ∨ s.stateOf st = none)

theorem drained_keeps (st : StreamIx) : EndKeeps (fun s => s.drained st) where
  removeTap t s hs := ⟨uOf_removeTap hs.1, by rw [stateOf_removeTap]; exact hs.2⟩
  modOrigin o f s hs := by cases o <;> exact hs
  posts _ _ hs := hs
  freeReads _ _ hs := hs
  ended a s hs := ⟨by rw [uOf_modStream (fun _ => by rfl)]; exact hs.1, by rw [stateOf_modStream (fun _ => by rfl)]; exact hs.2⟩
  freed a s r _ _ hs := by
    by_cases ha : st = a
    · subst ha
      exact ⟨by simp only [State.uOf, vget_set, if_true]; rfl, .inr (by simp only [State.stateOf, vget_set, if_true, Option.map_none])⟩
    · simpa only [State.drained, State.uOf, State.stateOf, vget_set, ha, if_false] using hs
  drained _ _ _ hs := hs
  eased a b s hs := ⟨by rw [uOf_modStream (fun _ => by rfl)]; exact hs.1, by rw [stateOf_modStream (fun _ => by rfl)]; exact hs.2⟩

/-- A FREE stream in no drain set. -/
def State.gone (s : State) (st : StreamIx) : Prop := s.streams[st] = none ∧ ∀ p : PortIx, st ∉ s.drainSets[p]

theorem gone_modStream {f : Stream → Stream} {st a : StreamIx} {s : State} (h : s.gone st) : (modStream a f s).gone st := by
  refine ⟨?_, h.2⟩
  simp only [modStream, vget_set]
  split
  · subst_vars; rw [h.1]; rfl
  · exact h.1

theorem gone_setDrainSet {p : PortIx} {l : StreamIx → Bool} {st : StreamIx} {s : State} (h : s.gone st) :
    (setDrainSet p ((s.drainSets[p]).filter l) s).gone st := by
  refine ⟨h.1, fun q => ?_⟩
  simp only [setDrainSet, vget_set]
  split
  · subst_vars; exact fun hm => h.2 _ (List.mem_of_mem_filter hm)
  · exact h.2 q

theorem gone_keeps (st : StreamIx) : EndKeeps (fun s => s.gone st) where
  removeTap t s hs := by
    cases hx : s.taps[t] with
    | none => rwa [removeTap_none hx]
    | some x =>
      obtain ⟨sto, he⟩ := removeTap_some hx
      rw [he]
      exact gone_modStream (f := Stream.loses t x.pending) (a := x.stream) hs
  modOrigin o f s hs := by cases o <;> exact hs
  posts _ _ hs := hs
  freeReads _ _ hs := hs
  ended _ _ hs := gone_modStream hs
  freed a s _ _ _ hs := by
    refine ⟨?_, hs.2⟩
    simp only [vget_set]
    split
    · rfl
    · exact hs.1
  drained _ _ _ hs := gone_setDrainSet hs
  eased _ _ _ hs := gone_modStream hs

theorem removeTap_keepsNone {t v : TapIx} {s : State} (h : s.taps[v] = none) : (removeTap t s).taps[v] = none := by
  cases hx : s.taps[t] with
  | none => rwa [removeTap_none hx]
  | some x =>
    obtain ⟨sto, he⟩ := removeTap_some hx
    rw [he, vget_set]
    split
    · rfl
    · exact h

theorem noTap_keeps (v : TapIx) : EndKeeps (fun s => s.taps[v] = none) where
  removeTap _ _ hs := removeTap_keepsNone hs
  modOrigin o f s hs := by cases o <;> exact hs
  posts _ _ hs := hs
  freeReads _ _ hs := hs
  ended _ _ hs := hs
  freed _ _ _ _ _ hs := hs
  drained _ _ _ hs := hs
  eased _ _ _ hs := hs

/-! ### A drain ends and a stream is freed, whatever the tables hold (R98, R99) -/

section
variable {s : State} {st : StreamIx} {r : Stream} {d : PostItem}

/-- A stream without blocks becomes FREE and leaves every drain set. -/
theorem freeStream_gone (h : s.uOf st = 0) : (freeStream st s).gone st := by
  have key := each_taking (is := allPorts) (f := fun p s => setDrainSet p ((s.drainSets[p]).filter (· != st)) s)
    (Inv := fun l u => u.streams[st] = none ∧ ∀ p ∈ l, st ∉ u.drainSets[p])
    (s := { s with streams := s.streams.set st none }) ⟨by simp only [vget_set, if_true], fun p hp => by cases hp⟩
    fun pre p rest _ u ⟨hst, hsets⟩ => by
      refine ⟨hst, fun q hq => ?_⟩
      simp only [setDrainSet, vget_set]
      by_cases hqp : q = p
      · subst hqp
        rw [if_pos rfl]
        simp
      · rw [if_neg hqp]
        exact hsets q ((List.mem_append.mp hq).resolve_right (by simpa using hqp))
  unfold freeStream
  rw [if_pos h]
  exact ⟨key.1, fun p => key.2 p (mem_allPorts p)⟩

theorem freeStream_eq (h : s.uOf st = 0) : ∃ sets, freeStream st s = { s with
    streams := s.streams.set st none, drainSets := sets } := by
  unfold freeStream
  rw [if_pos h]
  exact each_induct (P := fun w => ∃ sets, w = { s with streams := s.streams.set st none, drainSets := sets })
    (fun p _ w ⟨_, hw⟩ => ⟨_, by rw [hw]; rfl⟩) _ ⟨s.drainSets, rfl⟩

theorem freeStream_taps : (freeStream st s).taps = s.taps := by
  by_cases h : s.uOf st = 0
  · obtain ⟨_, he⟩ := freeStream_eq h
    rw [he]
  · rw [freeStream, if_neg h]

/-- The taps of the list of a stream whose drain ends are gone. -/
theorem each_endTaps_gone {v : TapIx} : ∀ {l : List TapIx} {s : State}, v ∈ l →
    (each l (fun t s => s |> postConsumer t .streamEnded |> removeTap t) s).taps[v] = none := by
  intro l
  induction l with
  | nil => intro s hv; cases hv
  | cons t l ih =>
    intro s hv
    rw [each_cons]
    rcases List.mem_cons.mp hv with rfl | hv
    · refine each_induct (P := fun u => u.taps[v] = none)
        (fun t _ u hu => removeTap_keepsNone (by rw [postConsumer_eq]; exact hu)) _ ?_
      rw [postConsumer_eq]
      cases hx : s.taps[v] with
      | none => exact removeTap_keepsNone hx
      | some x =>
        obtain ⟨sto, he⟩ := removeTap_some (s := { s with posts := s.posts ++ s.consumerPosts .streamEnded [v] }) hx
        rw [he]
        simp only [vget_set, if_true]
    · exact ih hv

theorem endDrain_untaps (hr : s.streams[st] = some r) {v : TapIx} (hv : v ∈ r.taps) : (endDrain d st s).taps[v] = none := by
  have hans : ∀ (o : Origin) (u : State), u.taps[v] = none → (answerAs d o .done [] u).taps[v] = none :=
    fun o u => (noTap_keeps v).drains d |>.answered o u
  have htaps := each_endTaps_gone (s := s) hv
  have hends : ∃ u f, endDrain d st s = modStream st f u ∧ u.taps[v] = none := by
    cases hc : r.closeBy with
    | none => exact ⟨_, _, by simp only [endDrain, hr, hc]; rfl, htaps⟩
    | some o => exact ⟨_, _, by simp only [endDrain, hr, hc]; rfl, hans o _ htaps⟩
  obtain ⟨u, f, he, hu⟩ := hends
  rw [he]
  exact hu

/-- A DRAINING stream without blocks ends its drain and is FREE. -/
theorem settleDrain_frees (h : s.isEmptied st = true) : (settleDrain d st s).gone st := by
  cases hr : s.streams[st] with
  | none => simp only [State.isEmptied, hr] at h; cases h
  | some r =>
    obtain ⟨hst, hf⟩ := (isEmptied_iff hr).mp h
    have hs : s.drained st := ⟨by simp [State.uOf, hr, Stream.u, hf], .inl (by simp [State.stateOf, hr, hst, -Fin.getElem_fin])⟩
    simp only [settleDrain, hr, hst, hf, and_self, if_true]
    refine freeStream_gone ?_
    split
    · exact (((drained_keeps st).drains d).endDrain hs).1
    · exact hs.1

theorem settleDrain_untaps (h : s.isEmptied st = true) (hr : s.streams[st] = some r) (hd : r.drainDeadline ≠ none)
    {v : TapIx} (hv : v ∈ r.taps) : (settleDrain d st s).taps[v] = none := by
  obtain ⟨hst, hf⟩ := (isEmptied_iff hr).mp h
  have hends : (endDrain d st s).taps[v] = none := endDrain_untaps hr hv
  have hsettle : settleDrain d st s = freeStream st (endDrain d st s) := by
    simp only [settleDrain, hr, hst, hf, and_self, if_true, Option.isSome_iff_ne_none.mpr hd]
  rw [hsettle, freeStream_taps]
  exact hends

theorem stateOf_settleDrain {a : StreamIx} (h : st ≠ a) : (settleDrain d a s).stateOf st = s.stateOf st := by
  have hfree : ∀ u : State, (freeStream a u).stateOf st = u.stateOf st := fun u => by
    by_cases hu : u.uOf a = 0
    · obtain ⟨_, he⟩ := freeStream_eq hu
      rw [he]
      simp only [State.stateOf, vget_set, h, if_false]
    · rw [freeStream, if_neg hu]
  unfold settleDrain
  split
  · rfl
  · split
    · rw [hfree]
      split
      · exact stateOf_endDrain ..
      · rfl
    · rfl

theorem isEmptied_iff_drained : s.isEmptied st = true ↔ s.uOf st = 0 ∧ s.stateOf st = some .draining := by
  cases hr : s.streams[st] with
  | none => simp [State.isEmptied, State.stateOf, hr, -Fin.getElem_fin]
  | some r =>
    rw [isEmptied_iff hr]
    simp [State.uOf, State.stateOf, hr, Stream.u, and_comm, -Fin.getElem_fin]

/-- The end of an event frees a DRAINING stream that the event has emptied. -/
theorem finish_frees {s0 : State} (h0 : s0.isEmptied st = false) (h : s.isEmptied st = true) : (finish s0 s).gone st := by
  let done : PostItem := if s0.tornDown s then .reply else .drainReply
  obtain ⟨w, hw⟩ := each_at (f := fun a u => if s0.isEmptied a then u else settleDrain done a u) nodup_allStreams
    (mem_allStreams st) s
  have hwd : w.isEmptied st = true := by
    refine (hw (fun u => u.isEmptied st = true) fun a _ ha u hu => ?_).1 h
    rw [isEmptied_iff_drained] at hu ⊢
    split
    · exact hu
    · exact ⟨(((drained_keeps st).drains done).settleDrain ⟨hu.1, .inl hu.2⟩).1,
        (stateOf_settleDrain (Ne.symm ha)).trans hu.2⟩
  have hsettled : (settleDrains s0 s).gone st := by
    refine (hw (fun u => u.gone st) fun a _ _ u hu => ?_).2 ?_
    · split
      · exact hu
      · exact ((gone_keeps st).drains done).settleDrain hu
    · rw [if_neg (by rw [h0]; simp)]
      exact settleDrain_frees hwd
  have hkeep := gone_keeps st
  exact hkeep.queueFarewells (hkeep.flush (hkeep.postRoles (hkeep.judgeAllEase hsettled)))

end

end Sys2Proof.Machine
end

section
namespace Sys2Proof.Machine

/-! ### What the end of a drain tells, with the DONE of a close order (R98, R99, R158) -/

theorem placeNotice_withSlot (k : NoticeKind) (b : List Byte) (q : OriginState) (x : Option Slot) :
    OriginState.placeNotice k b { q with slot := x } = { q.placeNotice k b with slot := x } := by
  have hn : OriginState.notices { q with slot := x } = q.notices := rfl
  unfold OriginState.placeNotice
  rw [hn]
  dsimp only
  split
  · rfl
  · split <;> rfl

theorem told_withSlot (l : Notices) : ∀ (q : OriginState) (x : Option Slot),
    OriginState.told l { q with slot := x } = { q.told l with slot := x } := by
  induction l with
  | nil => intro q x; rfl
  | cons y l ih =>
    intro q x
    have hcons : ∀ q : OriginState, q.told (y :: l) = (q.placeNotice y.1 y.2).told l := fun _ => rfl
    rw [hcons, placeNotice_withSlot, ih, hcons]

theorem told_slot (l : Notices) (q : OriginState) : (q.told l).slot = q.slot := by
  have h := told_withSlot l q q.slot
  exact (congrArg OriginState.slot h).trans rfl

/-- The placing at one origin looks at what goes to that origin alone. -/
theorem each_place_dest {o : Origin} : ∀ (l : List Post) (s : State),
    (each l place s).origin o = (each (l.filter (fun x => x.dest = o)) place s).origin o := by
  intro l
  induction l using List.reverseRecOn with
  | nil => intro s; rfl
  | append_singleton l x ih =>
    intro s
    have hplace : ∀ u : State, (place x u).origin o = if x.dest = o then (place x u).origin o else u.origin o := fun u => by
      split
      · rfl
      · rename_i hne
        obtain ⟨d, item⟩ := x
        cases item <;> simp only [place, modOrigin_origin, Ne.symm hne, if_false]
    have hcongr : ∀ u w : State, u.origin o = w.origin o → (place x u).origin o = (place x w).origin o := fun u w h => by
      obtain ⟨d, item⟩ := x
      cases item <;> simp only [place, modOrigin_origin, h]
    rw [List.filter_append, each_append, each_append]
    by_cases hd : x.dest = o
    · rw [List.filter_cons_of_pos (by simpa using hd), List.filter_nil]
      exact hcongr _ _ (ih s)
    · rw [List.filter_cons_of_neg (by simpa using hd), List.filter_nil]
      exact (hplace _).trans ((if_neg hd).trans (ih s))

/-- Where all that an origin is sent has the rank of STREAM ENDED, it is placed as it was posted. -/
theorem filter_flatMap_rank {o : Origin} {posts : List Post} (h : ∀ x ∈ posts, x.dest = o → x.rank posts = 7) :
    ((List.range 12).flatMap (fun k => posts.filter (fun x => x.rank posts == k))).filter (fun x => x.dest = o) =
      posts.filter (fun x => x.dest = o) := by
  have hone : ∀ k, (posts.filter (fun x => x.rank posts == k)).filter (fun x => x.dest = o) =
      if k = 7 then posts.filter (fun x => x.dest = o) else [] := fun k => by
    rw [List.filter_filter]
    split
    · subst_vars
      refine List.filter_congr fun x hx => ?_
      by_cases hd : x.dest = o
      · simp [hd, h x hx hd]
      · simp [hd]
    · refine List.filter_eq_nil_iff.mpr fun x hx => ?_
      by_cases hd : x.dest = o
      · rw [h x hx hd]; simp; omega
      · simp [hd]
  rw [List.filter_flatMap, List.flatMap_congr (fun k _ => hone k)]
  simp [List.range_succ]

/-- Where the steps of a drain's end post all that an origin is sent, its DONE is placed behind the notices. -/
theorem flush_drainReply {s : State} {o : Origin} {l : List Post} (hr : s.restarting = false)
    (hp : s.posts = l ++ [⟨o, .drainReply⟩]) (hl : OnlyNotices o l) (hd : ∀ x ∈ l, x.item.isOfDrain = true) :
    (flush s).origin o = (s.origin o).map (fun q => (q.told (noticesTo o l)).placeReply) := by
  have hall : ∀ x ∈ s.posts, x.item.isOfDrain = true := fun x hx => by
    rw [hp] at hx
    rcases List.mem_append.mp hx with hx | hx
    · exact hd x hx
    · rw [List.mem_singleton.mp hx]; rfl
  have hrank : ∀ x ∈ s.posts, x.dest = o → x.rank s.posts = 7 := fun x hx hxo => by
    have := hall x hx
    obtain ⟨d, item⟩ := x
    obtain rfl : d = o := hxo
    cases item with
    | reply => cases this
    | drainReply => exact rank_drainReply fun y hy _ => hall y hy
    | notice k b =>
      have hk : k = .streamEnded := by cases k <;> trivial
      rw [hk]; rfl
  unfold flush
  simp only [hr, Bool.false_eq_true, if_false]
  rw [each_place_dest, filter_flatMap_rank hrank, hp, List.filter_append, each_append,
    List.filter_cons_of_pos (by simp), List.filter_nil]
  have hplace : ∀ u : State, (each [⟨o, .drainReply⟩] place u).origin o = (u.origin o).map .placeReply := fun u => by
    show (modOrigin o .placeReply u).origin o = _
    rw [modOrigin_origin, if_pos rfl]
  have hon : OnlyNotices o (l.filter (fun x => x.dest = o)) := fun x hx => hl x (List.mem_of_mem_filter hx)
  have hsame : noticesTo o (l.filter (fun x => x.dest = o)) = noticesTo o l := by
    unfold noticesTo
    rw [List.filterMap_filter]
    refine List.filterMap_congr fun x _ => ?_
    obtain ⟨d, item⟩ := x
    by_cases hd : d = o
    · simp [hd]
    · cases item <;> simp [hd]
  rw [hplace, each_place_origin hon, hsame, Option.map_map]
  cases o <;> rfl

/-- What an event has posted to an origin when a drain has ended in it: the notices of the taps, and the DONE of the close
order where one is RUNNING. -/
def DrainPosted (b : State) (st : StreamIx) (r : Stream) (o : Origin) (w : State) : Prop :=
  (w.origin o = b.origin o ∧ (OnlyNotices o w.posts ∧ noticesTo o w.posts = b.endNotices st o) ∧
    (r.closeBy = some o → ∀ i c, (b.origin o).bind (·.slot) ≠ some ⟨i, c, none⟩)) ∨
  (r.closeBy = some o ∧ ∃ i c, (b.origin o).bind (·.slot) = some ⟨i, c, none⟩ ∧
    w.origin o = (b.origin o).map (fun q => { q with slot := some ⟨i, c, some (.done, [])⟩ }) ∧
    ∃ l, w.posts = l ++ [⟨o, .drainReply⟩] ∧ (OnlyNotices o l ∧ noticesTo o l = b.endNotices st o) ∧
      ∀ y ∈ l, y.item.isOfDrain = true)

theorem DrainPosted.congr {b w u : State} {st : StreamIx} {r : Stream} {o : Origin} (h : DrainPosted b st r o w)
    (ho : u.origin o = w.origin o) (hp : u.posts = w.posts) : DrainPosted b st r o u := by
  unfold DrainPosted
  rw [ho, hp]
  exact h

theorem endNotices_kind {u : State} {st : StreamIx} {o : Origin} : ∀ x ∈ u.endNotices st o, x.1 = .streamEnded := by
  cases o with
  | service => exact fun x hx => (List.not_mem_nil hx).elim
  | port c => exact tapNotices_kind

/-- The placing of what the end of a drain has posted. -/
theorem DrainPosted.flush {b w : State} {st : StreamIx} {r : Stream} {o : Origin} (h : DrainPosted b st r o w)
    (hr : w.restarting = false) : (flush w).origin o = (b.origin o).map (fun q =>
      if r.closeBy = some o then (q.told (b.endNotices st o)).closeAnswered else q.told (b.endNotices st o)) := by
  rcases h with ⟨ho, ⟨hon, hn⟩, hidle⟩ | ⟨hc, i, c, hslot, ho, l, hp, ⟨hon, hn⟩, hd⟩
  · rw [flush_origin hon, hn, ranked_of_kind endNotices_kind, State.told, if_neg (by rw [hr]; simp), ho]
    refine Option.map_congr fun q hq => ?_
    split
    · rename_i hc
      have hnot := hidle hc
      rw [hq] at hnot
      unfold OriginState.closeAnswered
      rw [told_slot]
      split
      · exact absurd ‹_› (hnot _ _)
      · rfl
    · rfl
  · rw [flush_drainReply hr hp hon hd, hn, ho, Option.map_map]
    refine Option.map_congr fun q hq => ?_
    rw [hq] at hslot
    rw [Function.comp_apply, told_withSlot, if_pos hc, OriginState.closeAnswered, told_slot,
      show q.slot = some ⟨i, c, none⟩ from hslot]

/-! ### All that the end of a drain does (R98, R99) -/

/-- The taps of a tap list are taps of its stream, each listed once. -/
def State.listed (b : State) (st : StreamIx) (l : List TapIx) : Prop :=
  l.Nodup ∧ ∀ v ∈ l, ∃ x, b.taps[v] = some x ∧ x.stream = st

theorem TapsAgree.listed {b : State} (h : b.TapsAgree) {st : StreamIx} {r : Stream} (hr : b.streams[st] = some r) :
    b.listed st r.taps := ⟨(h st r hr).1, fun v hv => ((h st r hr).2 v).mp hv⟩

theorem noticesTo_endTaps {b : State} {st : StreamIx} {r : Stream} (hr : b.streams[st] = some r) (o : Origin) :
    noticesTo o (b.tapPosts .streamEnded st r.taps) = b.endNotices st o := by
  cases o with
  | service => exact noticesTo_tapPosts_service ..
  | port c => rw [noticesTo_tapPosts, State.endNotices, hr]; rfl

theorem tapPosts_ofDrain {b : State} {st : StreamIx} {l : List TapIx} :
    ∀ y ∈ b.tapPosts .streamEnded st l, y.item.isOfDrain = true := fun y hy => by
  obtain ⟨v, -, hv⟩ := List.mem_filterMap.mp hy
  obtain ⟨x, -, rfl⟩ := Option.map_eq_some_iff.mp hv
  rfl

/-- A release from a stream without blocks frees nothing. -/
theorem releaseBlock_empty {st : StreamIx} {n : Nat} {s : State} (h : s.uOf st = 0) :
    (releaseBlock st n s).store = s.store ∧ (releaseBlock st n s).uOf st = 0 := by
  cases hr : s.streams[st] with
  | none =>
    have hid : releaseBlock st n s = s := by simp only [releaseBlock, hr]
    rw [hid]
    exact ⟨rfl, h⟩
  | some r =>
    have hnil : r.fifo = [] := List.length_eq_zero_iff.mp (by rwa [State.uOf, hr] at h)
    rw [releaseBlock_some hr, hnil]
    exact ⟨rfl, by simp only [State.uOf, vget_set, if_true]; rfl⟩

theorem removeTap_store {t : TapIx} {x : Tap} {s : State} (hx : s.taps[t] = some x) (h : s.uOf x.stream = 0) :
    (removeTap t s).store = s.store := by
  have hrel : (releaseBlocks x.stream x.pending s).store = s.store ∧ (releaseBlocks x.stream x.pending s).uOf x.stream = 0 :=
    each_induct (P := fun u => u.store = s.store ∧ u.uOf x.stream = 0)
      (fun n _ u hu => ⟨(releaseBlock_empty hu.2).1.trans hu.1, (releaseBlock_empty hu.2).2⟩) s ⟨rfl, h⟩
  simp only [removeTap, hx]
  exact hrel.1

/-- The store stands, and the stream of the listed taps holds no block. -/
def State.holdsStore (u : State) (store : Store) (st : StreamIx) (l : List TapIx) : Prop :=
  u.store = store ∧ u.uOf st = 0 ∧ ∀ v ∈ l, ∀ x, u.taps[v] = some x → x.stream = st

theorem removeTap_holdsStore {store : Store} {st : StreamIx} {l : List TapIx} {t : TapIx} (ht : t ∈ l) {u : State}
    (h : u.holdsStore store st l) : (removeTap t u).holdsStore store st l := by
  obtain ⟨hstore, hu0, htaps⟩ := h
  cases hx : u.taps[t] with
  | none => rw [removeTap_none hx]; exact ⟨hstore, hu0, htaps⟩
  | some x =>
    refine ⟨(removeTap_store hx (by rw [htaps t ht x hx]; exact hu0)).trans hstore, uOf_removeTap hu0, fun v hv y hy => ?_⟩
    obtain ⟨_, he⟩ := removeTap_some hx
    rw [he, vget_set] at hy
    split at hy
    · cases hy
    · exact htaps v hv y hy

/-- The taps of a stream without blocks free no block. -/
theorem each_endTaps_store {st : StreamIx} {l : List TapIx} {s : State} (hm : ∀ v ∈ l, ∀ x, s.taps[v] = some x → x.stream = st)
    (h : s.uOf st = 0) : (each l (fun t s => s |> postConsumer t .streamEnded |> removeTap t) s).store = s.store :=
  (each_induct (P := fun u => u.holdsStore s.store st l)
    (fun t ht u hu => removeTap_holdsStore ht (by rw [postConsumer_eq]; exact hu)) s ⟨rfl, h, hm⟩).1

section
variable {b : State} {st : StreamIx} {r : Stream}

/-- The end of a drain touches the stream, the taps of its list, the store, and the origin of the close order. -/
theorem endDrain_ends (hr : b.streams[st] = some r) (hl : b.listed st r.taps) (hp : b.posts = []) :
    (∃ fifo taps store origins service posts, endDrain .drainReply st b = { b with
      streams := b.streams.set st (some { r with fifo := fifo, taps := [], closeBy := none, drainDeadline := none })
      taps := taps, store := store, origins := origins, service := service, posts := posts } ∧
      (r.fifo = [] → fifo = [] ∧ store = b.store)) ∧
    ∀ o, DrainPosted b st r o (endDrain .drainReply st b) := by
  obtain ⟨hn, hm⟩ := hl
  obtain ⟨fifo, taps, store, hnilFifo, he, -⟩ := each_endTaps hn hm hr
  have hf : r.fifo = [] → fifo = [] ∧ store = b.store := fun h => by
    have hstore := each_endTaps_store (s := b) (st := st) (l := r.taps) (fun v hv x hx => by
      obtain ⟨y, hy, hys⟩ := hm v hv
      rw [hx] at hy; cases hy; exact hys) (by simp [State.uOf, hr, Stream.u, h])
    rw [he] at hstore
    exact ⟨hnilFifo h, hstore⟩
  have hnil : r.taps.filter (· ∉ r.taps) = [] := List.filter_eq_nil_iff.mpr fun v hv => by simpa using hv
  rw [hnil, hp, List.nil_append] at he
  have htold : ∀ o, OnlyNotices o (b.tapPosts .streamEnded st r.taps) ∧
      noticesTo o (b.tapPosts .streamEnded st r.taps) = b.endNotices st o :=
    fun o => ⟨onlyNotices_tapPosts o b _ _ _, noticesTo_endTaps hr o⟩
  generalize hu : ({ b with
      streams := b.streams.set st (some { r with fifo := fifo, taps := [] })
      taps := taps, store := store, posts := b.tapPosts .streamEnded st r.taps } : State) = u at he
  have huo : ∀ o, u.origin o = b.origin o := fun o => by subst hu; cases o <;> rfl
  have hup : u.posts = b.tapPosts .streamEnded st r.taps := by subst hu; rfl
  have hmod : ∀ w : State, w.streams = u.streams →
      modStream st (fun r => { r with closeBy := none, drainDeadline := none }) w = { w with
        streams := b.streams.set st (some { r with fifo := fifo, taps := [], closeBy := none, drainDeadline := none }) } :=
    fun w hw => by
      subst hu
      simp only [modStream, hw, vget_set, if_true, Option.map_some, Vector.set_set]
  cases hc : r.closeBy with
  | none =>
    have hends : endDrain .drainReply st b = modStream st (fun r => { r with closeBy := none, drainDeadline := none }) u := by
      simp only [endDrain, hr, hc, he]
    rw [hends, hmod u rfl]
    refine ⟨⟨fifo, taps, store, b.origins, b.service, b.tapPosts .streamEnded st r.taps, by subst hu; rfl, hf⟩, fun o => .inl
      ⟨(by cases o <;> rfl : _ = u.origin o).trans (huo o), ?_, fun h => by rw [hc] at h; cases h⟩⟩
    rw [show State.posts _ = u.posts from rfl, hup]
    exact htold o
  | some o' =>
    have hends : endDrain .drainReply st b = modStream st (fun r => { r with closeBy := none, drainDeadline := none })
        (answerAs .drainReply o' .done [] u) := by
      simp only [endDrain, hr, hc, he]
    obtain ⟨origins, service, posts, ha, hother⟩ := answerAs_spec .drainReply o' .done [] u
    have hshape : endDrain .drainReply st b = { b with
        streams := b.streams.set st (some { r with fifo := fifo, taps := [], closeBy := none, drainDeadline := none })
        taps := taps, store := store, origins := origins, service := service, posts := u.posts ++ posts } := by
      rw [hends, ha, hmod { u with origins := origins, service := service, posts := u.posts ++ posts } rfl]; subst hu; rfl
    have horigin : ∀ o, (endDrain .drainReply st b).origin o = (answerAs .drainReply o' .done [] u).origin o := fun o => by
      rw [hshape, ha]; cases o <;> rfl
    have hposts : (endDrain .drainReply st b).posts = (answerAs .drainReply o' .done [] u).posts := by
      rw [hshape, ha]
    refine ⟨⟨fifo, taps, store, origins, service, _, hshape, hf⟩, fun o => ?_⟩
    by_cases ho : o = o'
    · subst ho
      by_cases hrun : ∃ i c, (u.origin o).bind (·.slot) = some ⟨i, c, none⟩
      · obtain ⟨i, c, hslot⟩ := hrun
        rw [answerAs_running hslot] at horigin hposts
        refine .inr ⟨hc, i, c, by rw [← huo]; exact hslot, ?_, _, hposts.trans (congrArg (· ++ _) ((modOrigin_posts ..).trans hup)), htold o, tapPosts_ofDrain⟩
        rw [horigin, ← huo]
        exact (modOrigin_origin ..).trans (if_pos rfl)
      · have hidle : ∀ i c, (u.origin o).bind (·.slot) ≠ some ⟨i, c, none⟩ := fun i c h => hrun ⟨i, c, h⟩
        rw [answerAs_idle hidle] at horigin hposts
        exact .inl ⟨(horigin o).trans (huo o), by rw [hposts, hup]; exact htold o, fun _ i c => by rw [← huo]; exact hidle i c⟩
    · obtain ⟨ho1, ho2⟩ := hother o ho
      refine .inl ⟨(horigin o).trans (ho1.trans (huo o)), ?_, fun h => ?_⟩
      · have hnone : OnlyNotices o posts ∧ noticesTo o posts = [] := ⟨fun x hx hd => absurd hd (ho2 x hx),
          List.filterMap_eq_nil_iff.mpr fun x hx => by
            split
            · rw [if_neg (ho2 x hx)]
            · rfl⟩
        rw [hshape, hup]
        exact ⟨onlyNotices_append (htold o).1 hnone.1, by rw [noticesTo_append, hnone.2, List.append_nil]; exact (htold o).2⟩
      · rw [hc, Option.some.injEq] at h
        exact absurd h.symm ho

end

end Sys2Proof.Machine
end

section
namespace Sys2Proof.Machine

section
variable {s v w b : State} {st : StreamIx} {r : Stream}

/-- An event in which one drain has ended ends with the placing of what that drain posted. -/
theorem finish_judged (hv : judgeAllEase s (settleDrains s w) = v) (hsel : v.tb.selected = s.tb.selected) :
    finish s w = queueFarewells s (flush v) := by
  unfold finish
  rw [hv, postRoles_quiet hsel]

theorem drainTold_of (hfin : finish s w = queueFarewells s (flush v)) (hp : v.ports = s.ports) (hr : v.restarting = false)
    (hpost : ∀ o, DrainPosted b st r o v) (ho : ∀ o, b.origin o = s.origin o)
    (hn : ∀ c, b.endNotices st (.port c) = s.tapNotices .streamEnded st r.taps c) : DrainTold s (finish s w) st r := by
  have hports : (flush v).ports = s.ports := (flush_frame State.ports (fun _ => by rfl) v).trans hp
  refine ⟨fun c hc => ?_, ?_⟩
  · have hkeep : (queueFarewells s (flush v)).origin (.port c) = (flush v).origin (.port c) :=
      queueFarewells_origin _ _ fun p hp => by
        obtain rfl : c = p := by injection hp
        rw [hports]; exact hc
    rw [(hpost (.port c)).flush hr, ho, hn] at hkeep
    rw [hfin]
    exact hkeep
  · have hkeep := (hpost .service).flush hr
    rw [ho] at hkeep
    rw [hfin, queueFarewells_service]
    refine (Option.some.inj hkeep).trans ?_
    have hnil : b.endNotices st .service = [] := rfl
    rw [hnil]
    rfl

/-- Where no stream but one has changed, and that one is FREE now or held no blocks before, no drain settles. -/
theorem settled_gone (hother : ∀ a, a ≠ st → w.streams[a] = s.streams[a]) (hgone : w.streams[st] = none) :
    settleDrains s w = w ∧ judgeAllEase s w = w := by
  refine ⟨settleDrains_unemptied fun a ha => ?_, ?_⟩
  · by_cases hast : a = st
    · subst hast
      simp only [State.isEmptied, hgone] at ha; cases ha
    · simpa only [State.isEmptied, hother a hast] using ha
  · by_cases hu : s.uOf st = w.uOf st
    · refine judgeAllEase_same fun a => ?_
      by_cases hast : a = st
      · rw [hast, hu]
      · simp only [State.uOf, hother a hast]
    · rw [judgeAllEase_single hu fun a ha => by simp only [State.uOf, hother a ha]]
      simp only [judgeEase, hgone]

/-- Where one stream alone has changed, its drain alone can settle. -/
theorem settleDrains_single (hother : ∀ a, a ≠ st → w.streams[a] = s.streams[a]) (h0 : s.isEmptied st = false)
    (ht : s.tornDown w = false) (hkeep : ∀ a, a ≠ st → (settleDrain .drainReply st w).streams[a] = w.streams[a]) :
    settleDrains s w = settleDrain .drainReply st w := by
  have hidle : ∀ a, a ≠ st → ∀ u : State, u.streams[a] = s.streams[a] →
      (if s.isEmptied a then u else settleDrain .drainReply a u) = u := fun a ha u hu => by
    split
    · rfl
    · rename_i hem
      refine settleDrain_of_not _ ?_
      simpa only [State.isEmptied, hu, Bool.not_eq_true] using hem
  have hstep : (if s.isEmptied st then w else settleDrain .drainReply st w) = settleDrain .drainReply st w :=
    if_neg (by rw [h0]; simp)
  unfold settleDrains
  simp only [ht, Bool.false_eq_true, if_false]
  rw [each_single nodup_allStreams (mem_allStreams st) (fun a ha => hidle a ha w (hother a ha))]
  · exact hstep
  · intro a ha
    rw [hstep]
    exact hidle a ha _ ((hkeep a ha).trans (hother a ha))

theorem tornDown_ports (h : w.ports = s.ports) : s.tornDown w = false := by
  simp only [State.tornDown, h, List.any_eq_false]
  intro p _
  cases (s.ports[p]).state <;> decide

/-- A drain that ends on a stream without blocks frees it. -/
theorem settleDrain_ends (hr : b.streams[st] = some r) (hst : r.state = .draining) (hf : r.fifo = []) (hd : r.drainDeadline ≠ none)
    (hl : b.listed st r.taps) (hp : b.posts = []) :
    (∃ taps origins service posts sets, settleDrain .drainReply st b = { b with
      streams := b.streams.set st none
      taps := taps, origins := origins, service := service, posts := posts, drainSets := sets }) ∧
    ∀ o, DrainPosted b st r o (settleDrain .drainReply st b) := by
  obtain ⟨⟨fifo, taps, store, origins, service, posts, he, hnil⟩, hpost⟩ := endDrain_ends hr hl hp
  have hsettle : settleDrain .drainReply st b = freeStream st (endDrain .drainReply st b) := by
    simp only [settleDrain, hr, hst, hf, and_self, if_true, Option.isSome_iff_ne_none.mpr hd]
  have hu : (endDrain .drainReply st b).uOf st = 0 := by
    rw [he]; simp only [State.uOf, vget_set, if_true, Option.map_some, Stream.u, (hnil hf).1]; rfl
  obtain ⟨sets, hfree⟩ := freeStream_eq hu
  rw [hsettle, hfree]
  refine ⟨⟨taps, origins, service, posts, sets, ?_⟩, fun o => (hpost o).congr (by cases o <;> rfl) rfl⟩
  rw [he, (hnil hf).2]
  simp only [Vector.set_set]

end

/-! ### An emptied stream (R98, R99) -/

/-- An origin with an entry queued queues no FAREWELL. -/
theorem queueFarewells_busy {s0 u : State} {o : Origin} {q : OriginState} (ho : u.origin o = some q) (hq : q.queue ≠ []) :
    (queueFarewells s0 u).origin o = some q := by
  refine each_induct (P := fun w => w.origin o = some q) (fun p _ w hw => ?_) u ho
  split
  · exact hw
  · unfold queueFarewell
    split
    · rename_i hpark
      rw [modOrigin_origin]
      split
      · subst_vars
        have hq0 : w.origins[p] = some q := hw
        exact absurd ((mayPark_iff hq0).mp hpark).2.2.1 hq
      · exact hw
    · exact hw

section
variable {s : State} {st : StreamIx} {r : Stream}

theorem exec_drainEnd (hrest : s.atRest = false) :
    exec (.drainEnd st) s = .next (finish s (settleDrain .drainReply st (begin_ s))) := event_running hrest

theorem exec_drainDeadlineExpiry (hrest : s.atRest = false) :
    exec (.drainDeadlineExpiry st) s = .next (finish s (expireDrain st (begin_ s))) := event_running hrest

theorem isEmptied_begin (hr : s.streams[st] = some r) (hst : r.state = .draining) (hf : r.fifo = []) :
    (begin_ s).isEmptied st = true := (isEmptied_iff (u := begin_ s) hr).mpr ⟨hst, hf⟩

/-- The event of an emptied stream's drain ends with the placing of what the drain posted. -/
theorem drainEnd_finish (hr : s.streams[st] = some r) (hst : r.state = .draining) (hf : r.fifo = [])
    (hd : r.drainDeadline ≠ none) (hl : s.listed st r.taps) :
    finish s (settleDrain .drainReply st (begin_ s)) = queueFarewells s (flush (settleDrain .drainReply st (begin_ s))) ∧
    (settleDrain .drainReply st (begin_ s)).ports = s.ports ∧
    (settleDrain .drainReply st (begin_ s)).restarting = s.restarting ∧
    ∀ o, DrainPosted (begin_ s) st r o (settleDrain .drainReply st (begin_ s)) := by
  obtain ⟨⟨taps, origins, service, posts, sets, he⟩, hpost⟩ :=
    settleDrain_ends (b := begin_ s) hr hst hf hd hl rfl
  refine ⟨?_, by rw [he]; rfl, by rw [he]; rfl, hpost⟩
  obtain ⟨h1, h2⟩ := settled_gone (s := s) (w := settleDrain .drainReply st (begin_ s)) (st := st)
    (fun a ha => by rw [he]; simp only [vget_set, ha, if_false]; rfl) (by rw [he]; simp only [vget_set, if_true])
  exact finish_judged (by rw [h1, h2]) (by rw [he]; rfl)

theorem listed_of_law (hrest : s.atRest = false) (hlaw : s.BlockLaw) (hr : s.streams[st] = some r) : s.listed st r.taps :=
  TapsAgree.listed (TapListLaw.agree (hlaw hrest).1) hr

theorem endNotices_begin (hr : s.streams[st] = some r) (c : PortIx) :
    (begin_ s).endNotices st (.port c) = s.tapNotices .streamEnded st r.taps c := by
  rw [State.endNotices, show (begin_ s).streams[st] = some r from hr]; rfl

theorem drainEnd_told (hr : s.streams[st] = some r) (hst : r.state = .draining) (hf : r.fifo = [])
    (hd : r.drainDeadline ≠ none) (hl : s.listed st r.taps) (hres : s.restarting = false) :
    DrainTold s (finish s (settleDrain .drainReply st (begin_ s))) st r := by
  obtain ⟨hfin, hports, hres', hpost⟩ := drainEnd_finish hr hst hf hd hl
  exact drainTold_of hfin hports (hres'.trans hres) hpost (fun o => by cases o <;> rfl) (endNotices_begin hr)

/-- The DONE of the close order of a stream without taps. -/
theorem drainEnd_answers {o : Origin} {q : OriginState} {ident : Byte} (hr : s.streams[st] = some r)
    (hst : r.state = .draining) (hf : r.fifo = []) (hd : r.drainDeadline ≠ none) (ht : r.taps = [])
    (hres : s.restarting = false) (hc : r.closeBy = some o) (hq : s.origin o = some q)
    (hslot : q.slot = some ⟨ident, 0x09, none⟩) (hrep : q.hasReply = false) :
    (finish s (settleDrain .drainReply st (begin_ s))).origin o = some { q with
      slot := some ⟨ident, 0x09, some (.done, [])⟩, queue := q.queue ++ [.reply true ident 0x09 .done []] } := by
  obtain ⟨hfin, hports, hres', hpost⟩ := drainEnd_finish hr hst hf hd (by rw [ht]; exact ⟨List.nodup_nil, fun v hv => by cases hv⟩)
  have hq' : (begin_ s).origin o = some q := by rw [← hq]; cases o <;> rfl
  have hnone : (begin_ s).endNotices st o = [] := by
    cases o with
    | service => rfl
    | port c => rw [endNotices_begin hr, ht]; rfl
  have hflush := (hpost o).flush (hres'.trans hres)
  rw [hq', hnone, Option.map_some, if_pos hc] at hflush
  have hans : (q.told []).closeAnswered = { q with
      slot := some ⟨ident, 0x09, some (.done, [])⟩, queue := q.queue ++ [.reply true ident 0x09 .done []] } := by
    have hrep' : OriginState.hasReply { q with slot := some ⟨ident, 0x09, some (.done, [])⟩ } = false := hrep
    have hnil : q.told [] = q := rfl
    rw [hnil]
    simp only [OriginState.closeAnswered, hslot, OriginState.placeReply, hrep', Bool.false_eq_true, if_false]
  rw [hans] at hflush
  rw [hfin]
  exact queueFarewells_busy hflush (by simp)

end

/-! ### The drain deadline (R98, R99) -/

section
variable {s w : State} {st : StreamIx} {r : Stream}

/-- Where one stream alone has changed, its ease alone is judged. -/
theorem judgeAllEase_one (hother : ∀ a, a ≠ st → w.streams[a] = s.streams[a]) :
    judgeAllEase s w = w ∨ judgeAllEase s w = judgeEase st w := by
  have huo : ∀ a, a ≠ st → s.uOf a = w.uOf a := fun a ha => by simp only [State.uOf, hother a ha]
  by_cases hu : s.uOf st = w.uOf st
  · exact .inl (judgeAllEase_same fun a => if ha : a = st then ha ▸ hu else huo a ha)
  · exact .inr (judgeAllEase_single hu huo)

/-- A stream whose drain has ended keeps its blocks in DRAINING, or is freed with the last. -/
theorem settleDrain_ended {r' : Stream} (hr : w.streams[st] = some r') (hst : r'.state = .draining) (hd : r'.drainDeadline = none) :
    (r'.fifo ≠ [] ∧ settleDrain .drainReply st w = w) ∨
    ∃ sets, settleDrain .drainReply st w = { w with streams := w.streams.set st none, drainSets := sets } := by
  by_cases hf : r'.fifo = []
  · have hu : w.uOf st = 0 := by simp [State.uOf, hr, Stream.u, hf]
    obtain ⟨sets, he⟩ := freeStream_eq hu
    refine .inr ⟨sets, ?_⟩
    rw [← he]
    simp only [settleDrain, hr, hst, hf, hd, and_self, if_true, Option.isSome_none, Bool.false_eq_true, if_false]
  · refine .inl ⟨hf, settleDrain_of_not _ ?_⟩
    simp [State.isEmptied, hr, hf, -Fin.getElem_fin]

/-- Where the drain of a stream with blocks has ended at its deadline: what the event leaves of the stream, and that it posts
nothing more where the stream has no producer. -/
theorem deadline_judged (hother : ∀ a, a ≠ st → w.streams[a] = s.streams[a]) (hp : w.ports = s.ports)
    (h0 : s.isEmptied st = false) {r' : Stream} (hr : w.streams[st] = some r') (hst : r'.state = .draining)
    (hd : r'.drainDeadline = none) (hc : r'.closeBy = none) {v : State} (hv : judgeAllEase s (settleDrains s w) = v) :
    (v.streams[st] = none ∨ ∃ r', v.streams[st] = some r' ∧ r'.state = .draining ∧ r'.fifo ≠ [] ∧
      r'.drainDeadline = none ∧ r'.closeBy = none) ∧
    (v.ports = w.ports ∧ v.restarting = w.restarting ∧ v.tb = w.tb) ∧
    (r'.producer = none → v.posts = w.posts ∧ ∀ o, v.origin o = w.origin o) := by
  have hcase := settleDrain_ended hr hst hd
  have hsettle : settleDrains s w = settleDrain .drainReply st w :=
    settleDrains_single hother h0 (tornDown_ports hp) fun a ha => by
      rcases hcase with ⟨-, h⟩ | ⟨sets, h⟩
      · rw [h]
      · rw [h]; simp only [vget_set, ha, if_false]
  rw [hsettle] at hv
  rcases hcase with ⟨hf, h⟩ | ⟨sets, h⟩
  · rw [h] at hv
    rcases judgeAllEase_one hother with hj | hj
    · rw [hj] at hv
      subst hv
      exact ⟨.inr ⟨r', hr, hst, hf, hd, hc⟩, ⟨rfl, rfl, rfl⟩, fun _ => ⟨rfl, fun _ => rfl⟩⟩
    · rw [hj, judgeEase_eq hr] at hv
      subst hv
      refine ⟨.inr ⟨{ r' with eased := r'.judged }, by simp only [vget_set, if_true], hst, hf, hd, hc⟩, ⟨rfl, rfl, rfl⟩,
        fun hn => ⟨?_, fun o => by cases o <;> rfl⟩⟩
      simp only [Stream.toProducer, hn, Option.map_none, Option.getD_none, List.append_nil]
  · rw [h] at hv
    have hgone : (w.streams.set st none)[st] = none := by simp only [vget_set, if_true]
    obtain ⟨-, hj⟩ := settled_gone (s := s) (w := { w with streams := w.streams.set st none, drainSets := sets })
      (fun a ha => by simp only [vget_set, ha, if_false]; exact hother a ha) hgone
    rw [hj] at hv
    subst hv
    exact ⟨.inl hgone, ⟨rfl, rfl, rfl⟩, fun _ => ⟨rfl, fun o => by cases o <;> rfl⟩⟩

/-- The deadline of a stream with blocks. -/
theorem deadline_ends (hr : s.streams[st] = some r) (hst : r.state = .draining) (hf : r.fifo ≠ []) (hl : s.listed st r.taps) :
    let t := finish s (endDrain .drainReply st (begin_ s))
    (s.restarting = false → r.producer = none → DrainTold s t st r) ∧
    (t.streams[st] = none ∨ ∃ r', t.streams[st] = some r' ∧ r'.state = .draining ∧ r'.fifo ≠ [] ∧
      r'.drainDeadline = none ∧ r'.closeBy = none) := by
  obtain ⟨⟨fifo, taps, store, origins, service, posts, he, -⟩, hpost⟩ := endDrain_ends (b := begin_ s) hr hl rfl
  have h0 : s.isEmptied st = false := by simp [State.isEmptied, hr, hf, -Fin.getElem_fin]
  have hother : ∀ a, a ≠ st → (endDrain .drainReply st (begin_ s)).streams[a] = s.streams[a] := fun a ha => by
    rw [he]; simp only [vget_set, ha, if_false]; rfl
  have hown : (endDrain .drainReply st (begin_ s)).streams[st] =
      some { r with fifo := fifo, taps := [], closeBy := none, drainDeadline := none } := by
    rw [he]; simp only [vget_set, if_true]
  obtain ⟨hstream, ⟨hports, hres', htb⟩, htold⟩ := deadline_judged (s := s) hother (by rw [he]; rfl) h0 hown hst rfl rfl rfl
  have hselected : (endDrain .drainReply st (begin_ s)).tb = s.tb := by rw [he]; rfl
  have hp : (endDrain .drainReply st (begin_ s)).ports = s.ports := by rw [he]; rfl
  have hr' : (endDrain .drainReply st (begin_ s)).restarting = s.restarting := by rw [he]; rfl
  refine ⟨fun hres hprod => ?_, ?_⟩
  · obtain ⟨hposts, horigin⟩ := htold hprod
    exact drainTold_of (finish_judged rfl (by rw [htb, hselected])) (hports.trans hp) (hres'.trans (hr'.trans hres))
      (fun o => (hpost o).congr (horigin o) hposts) (fun o => by cases o <;> rfl) (endNotices_begin hr)
  · rw [(finish_about s _).1]
    exact hstream

end

/-! ### The last TAIL of a drained stream (R98, R99, R134) -/

section
variable {p : PortIx} {k : Block} {v : TapIx} {bytes : List Byte} {start : Nat} {s : State} {st : StreamIx} {r : Stream}

/-- The state in which the TAIL of the last block of a stream has released it. -/
def State.lastSent (s : State) (p : PortIx) (st : StreamIx) (r : Stream) (k : Block) (v : TapIx) (bytes : List Byte)
    (start : Nat) : State := { tailGone p ⟨.samples st k.number v, bytes, start⟩ k.number v s with
  streams := s.streams.set st (some { r with fifo := [] })
  store := { s.store with free := s.store.free ++ [k.number] } }

theorem samplesTail_last (hrest : s.atRest = false) (hr : s.streams[st] = some r)
    (hf : (s.egress[p]).flight = some ⟨.samples st k.number v, bytes, start⟩)
    (hstop : start + bytes.length + 2 ≤ 2 * s.clock.cycle + 1) (hq : r.fifo = [k]) (hk : k.refs ≤ 1) :
    exec (.samplesTail p) s = .next (finish s (s.lastSent p st r k v bytes start)) := by
  have hx : exec (.samplesTail p) s = event (tailSamples p) s := rfl
  rw [hx, event_running hrest, tailSamples_eq hf hstop]
  have hr' : (tailGone p ⟨.samples st k.number v, bytes, start⟩ k.number v s).streams[st] = some r := hr
  rw [releaseBlock_present (before := []) (after := []) hr' hq (fun b hb => by cases hb)]
  simp only [hk, if_true, Stream.releases]
  rfl

theorem lastSent_tap (u : TapIx) : (s.lastSent p st r k v bytes start).taps[u] = (s.taps[u]).map (fun y =>
    if u = v ∧ y.consumer = p ∧ y.inFlight = some k.number then { y with inFlight := none } else y) := by
  show ((s.taps.set v _)[u] : Option Tap) = _
  rw [vget_set]
  split
  · subst_vars; simp only [true_and]; rfl
  · rename_i hne; simp only [hne, false_and, if_false, Option.map_id']

theorem lastSent_emptied (hst : r.state = .draining) : (s.lastSent p st r k v bytes start).isEmptied st = true :=
  (isEmptied_iff (r := { r with fifo := [] }) (by simp only [State.lastSent, vget_set, if_true])).mpr ⟨hst, rfl⟩

theorem lastSent_listed (hl : s.listed st r.taps) : (s.lastSent p st r k v bytes start).listed st r.taps :=
  ⟨hl.1, fun u hu => by
    obtain ⟨x, hx, hxs⟩ := hl.2 u hu
    refine ⟨_, by rw [lastSent_tap, hx, Option.map_some], ?_⟩
    split <;> exact hxs⟩

theorem lastSent_endNotices (c : PortIx) :
    (s.lastSent p st r k v bytes start).endNotices st (.port c) = s.tapNotices .streamEnded st r.taps c := by
  have hown : (s.lastSent p st r k v bytes start).streams[st] = some { r with fifo := [] } := by
    simp only [State.lastSent, vget_set, if_true]
  rw [State.endNotices, hown]
  refine List.filterMap_congr fun u _ => ?_
  rw [lastSent_tap]
  cases s.taps[u] with
  | none => rfl
  | some x => simp only [Option.map_some]; split <;> rfl

/-- What that event leaves before its notices are placed, where the stream's tap list names its taps. -/
theorem lastSent_settles (hr : s.streams[st] = some r) (hst : r.state = .draining) (hq : r.fifo = [k])
    (hl : s.listed st r.taps) : ∃ w, finish s (s.lastSent p st r k v bytes start) = queueFarewells s (flush w) ∧
      (w.ports = s.ports ∧ w.restarting = s.restarting ∧ w.store.free = s.store.free ++ [k.number]) ∧
      (r.drainDeadline ≠ none → ∀ o, DrainPosted (s.lastSent p st r k v bytes start) st r o w) := by
  have hown : (s.lastSent p st r k v bytes start).streams[st] = some { r with fifo := [] } := by
    simp only [State.lastSent, vget_set, if_true]
  have hother : ∀ a, a ≠ st → (s.lastSent p st r k v bytes start).streams[a] = s.streams[a] := fun a ha => by
    simp only [State.lastSent, vget_set, ha, if_false]
  have h0 : s.isEmptied st = false := by simp [State.isEmptied, hr, hq, -Fin.getElem_fin]
  have hports : (s.lastSent p st r k v bytes start).ports = s.ports := rfl
  have hcase : ∃ taps origins service posts sets, settleDrain .drainReply st (s.lastSent p st r k v bytes start) =
      { s.lastSent p st r k v bytes start with
        streams := (s.lastSent p st r k v bytes start).streams.set st none
        taps := taps, origins := origins, service := service, posts := posts, drainSets := sets } := by
    by_cases hd : r.drainDeadline = none
    · rcases settleDrain_ended hown hst hd with ⟨hne, -⟩ | ⟨sets, he⟩
      · exact absurd rfl hne
      · exact ⟨_, _, _, _, sets, he⟩
    · exact (settleDrain_ends hown hst rfl hd (lastSent_listed hl) rfl).1
  have hpost : r.drainDeadline ≠ none → ∀ o, DrainPosted (s.lastSent p st r k v bytes start) st r o
      (settleDrain .drainReply st (s.lastSent p st r k v bytes start)) := fun hd =>
    (settleDrain_ends hown hst rfl hd (lastSent_listed hl) rfl).2
  obtain ⟨taps, origins, service, posts, sets, he⟩ := hcase
  have hsettle := settleDrains_single hother h0 (tornDown_ports hports) fun a ha => by
    rw [he]; simp only [vget_set, ha, if_false]
  obtain ⟨-, hj⟩ := settled_gone (s := s) (w := settleDrain .drainReply st (s.lastSent p st r k v bytes start)) (st := st)
    (fun a ha => by rw [he]; simp only [vget_set, ha, if_false]; exact hother a ha) (by rw [he]; simp only [vget_set, if_true])
  refine ⟨_, finish_judged (by rw [hsettle, hj]) (by rw [he]; rfl), ⟨by rw [he]; exact hports, by rw [he]; rfl, by rw [he]; rfl⟩,
    hpost⟩

end

theorem queueFarewells_store (s0 s : State) : (queueFarewells s0 s).store = s.store :=
  each_frame (g := State.store) allPorts (fun p u => by
    split
    · rfl
    · unfold queueFarewell; split <;> rfl) s

/-- Settles O37: an emptied stream, the deadline of one with blocks, its last TAIL, and the DONE of its close order. -/
theorem drainEnds : Obligations.DrainEnds := by
  intro st s r hrest hr hst
  refine ⟨fun hf => ⟨_, exec_drainEnd hrest, ?_⟩, fun hf => ?_, fun hf hd => ?_, fun hd => ?_,
    fun p k v bytes start hflight hstop hq hk => ⟨_, samplesTail_last hrest hr hflight hstop hq hk, ?_⟩,
    fun o q ident hres hc hq hslot hrep ht hf hd => ⟨_, exec_drainEnd hrest, _, drainEnd_answers hr hst hf hd ht hres hc hq hslot hrep, rfl, rfl⟩⟩
  · have hem := isEmptied_begin hr hst hf
    obtain ⟨hnone, hsets⟩ := (gone_keeps st).finish (s0 := s) (settleDrain_frees (d := .drainReply) hem)
    exact ⟨hnone, hsets, fun hd v hv => (noTap_keeps v).finish (settleDrain_untaps hem hr hd hv),
      fun hres hlaw hd => drainEnd_told hr hst hf hd (listed_of_law hrest hlaw hr) hres⟩
  · have hnot : settleDrain .drainReply st (begin_ s) = begin_ s := settleDrain_of_not _ (by
      rw [Bool.eq_false_iff]
      exact fun h => hf ((isEmptied_iff (u := begin_ s) hr).mp h).2)
    rw [exec_drainEnd hrest, hnot]
    exact congrArg Host.Outcome.next (finish_untouched rfl rfl (fun _ => id) rfl rfl rfl)
  · have hends : expireDrain st (begin_ s) = endDrain .drainReply st (begin_ s) := by
      have hr' : (begin_ s).streams[st] = some r := hr
      have hd' : r.drainDeadline = some (begin_ s).tb.beat := hd
      simp only [expireDrain, hr', hst, hd', and_self, if_true]
    refine ⟨_, (exec_drainDeadlineExpiry hrest).trans (by rw [hends]), ?_, ?_, ?_⟩
    · exact fun v hv => (noTap_keeps v).finish (endDrain_untaps (s := begin_ s) hr hv)
    · exact fun hres hlaw hprod => (deadline_ends hr hst hf (listed_of_law hrest hlaw hr)).1 hres hprod
    · exact fun hlaw => (deadline_ends hr hst hf (listed_of_law hrest hlaw hr)).2
  · have hnot : expireDrain st (begin_ s) = begin_ s := by
      have hr' : (begin_ s).streams[st] = some r := hr
      simp only [expireDrain, hr']
      exact if_neg fun h => hd h.2
    rw [exec_drainDeadlineExpiry hrest, hnot]
    exact congrArg Host.Outcome.next (finish_untouched rfl rfl (fun _ => id) rfl rfl rfl)
  · have h0 : s.isEmptied st = false := by simp [State.isEmptied, hr, hq, -Fin.getElem_fin]
    obtain ⟨hnone, hsets⟩ := finish_frees h0 (lastSent_emptied (p := p) (k := k) (v := v) (bytes := bytes) (start := start) (s := s) hst)
    refine ⟨hnone, fun hlaw => ?_, hsets, fun hres hlaw hd => ?_⟩
    · obtain ⟨w, hfin, ⟨-, -, hfree⟩, -⟩ := lastSent_settles (p := p) (v := v) (bytes := bytes) (start := start) hr hst hq
        (listed_of_law hrest hlaw hr)
      rw [hfin, queueFarewells_store, flush_frame State.store fun _ => by rfl]
      exact hfree
    · obtain ⟨w, hfin, ⟨hports, hres', -⟩, hpost⟩ := lastSent_settles (p := p) (v := v) (bytes := bytes) (start := start) hr hst hq
        (listed_of_law hrest hlaw hr)
      exact drainTold_of hfin hports (hres'.trans hres) (hpost hd) (fun o => by cases o <;> rfl) lastSent_endNotices

end Sys2Proof.Machine
end

section
namespace Sys2Proof.Machine

/-! ### A hold limit where a FIFO lists one block number twice (R29, R98, R113)

The law of the blocks does not say that the numbers in a FIFO are distinct; the law of the pool does, and the statement does not
ask for it. With one number listed twice no entry has more references than the taps of the held port hold, and yet a shed drops
the first entry alone: the drain does not end and the tap stands. -/

/-- A block with one holder. -/
def twinBlock : Block := ⟨0, 0, 1, 0, [0], false, false, 1⟩

/-- A DRAINING stream that lists the block twice. -/
def twinStream : Stream where
  state := .draining
  producer := none
  frameId := 0
  tag := 0
  width := 1
  spp := 1
  period := 1
  depth := 32
  priority := 0
  startBeat := 0
  baseline := none
  resumeMark := false
  eased := false
  fifo := [twinBlock, twinBlock]
  taps := [5]
  counters := StreamCounters.zero
  drainDeadline := some 9
  orphanDeadline := none
  closeBy := none

/-- The tap of port 3 that holds the block. -/
def twinTap : Tap := ⟨9, 3, 0, ⟨none, none, 1, false, 32⟩, none, [0], none, 0, 0, none⟩

/-- Port 3 ACTIVE and held up to its hold limit, with its tap on the stream. -/
def twinState : State := { State.reset with
  ports := State.reset.ports.set 3 { Port.initial true with state := .active, held := true, holdBeats := 2 }
  streams := State.reset.streams.set 9 (some twinStream)
  taps := State.reset.taps.set 5 (some twinTap) }

theorem twinState_stream {st : StreamIx} {r : Stream} (h : twinState.streams[st] = some r) : st = 9 ∧ r = twinStream := by
  have hst : twinState.streams[st] = if st = 9 then some twinStream else State.reset.streams[st] :=
    vget_set State.reset.streams (9 : StreamIx) st (some twinStream)
  rw [hst] at h
  split at h
  · exact ⟨‹_›, (Option.some.inj h).symm⟩
  · simp [State.reset] at h

theorem twinState_tap {v : TapIx} {x : Tap} (h : twinState.taps[v] = some x) : v = 5 ∧ x = twinTap := by
  have hv : twinState.taps[v] = if v = 5 then some twinTap else State.reset.taps[v] :=
    vget_set State.reset.taps (5 : TapIx) v (some twinTap)
  rw [hv] at h
  split at h
  · exact ⟨‹_›, (Option.some.inj h).symm⟩
  · simp [State.reset] at h

theorem twinState_blocks : twinState.BlockLaw := by
  have hstream : twinState.streams[(9 : StreamIx)] = some twinStream := by decide +kernel
  have htap : twinState.taps[(5 : TapIx)] = some twinTap := by decide +kernel
  have hholds : twinState.holders 9 0 = 1 := by decide +kernel
  refine fun _ => ⟨fun st r hr => ?_, fun st r hr k hk => ?_, fun v x hx => ?_, fun p st b t bytes start hf => ?_⟩
  · obtain ⟨rfl, rfl⟩ := twinState_stream hr
    refine ⟨List.nodup_singleton 5, fun v => ?_, fun _ h => by cases h⟩
    rw [show twinStream.taps = [5] from rfl, List.mem_singleton]
    exact ⟨fun h => h ▸ ⟨twinTap, htap, rfl⟩, fun ⟨x, hx, _⟩ => (twinState_tap hx).1⟩
  · obtain ⟨rfl, rfl⟩ := twinState_stream hr
    have hone : k = twinBlock := by simpa [twinStream] using hk
    subst hone
    exact ⟨Nat.le_refl 1, hholds.symm⟩
  · obtain ⟨rfl, rfl⟩ := twinState_tap hx
    exact ⟨List.nodup_singleton 0, twinStream, hstream, fun b hb =>
      ⟨twinBlock, List.mem_cons_self, (List.mem_singleton.mp hb).symm⟩⟩
  · have hidle : (twinState.egress[p]).flight = none := by
      simp only [twinState, State.reset, Fin.getElem_fin, Vector.getElem_replicate]; rfl
    rw [hidle] at hf; cases hf

theorem twinState_keepsNone : ¬ twinState.keepsBlock 3 9 := by
  rintro ⟨r, hr, k, hk, h⟩
  obtain ⟨-, rfl⟩ := twinState_stream hr
  have hone : k = twinBlock := by simpa [twinStream] using hk
  subst hone
  exact absurd h (by decide +kernel)

/-- The tap of the outcome stands. -/
theorem twinState_tapStands : (match exec (.holdLimitExpiry 3) twinState with
    | .next t => (t.taps[(5 : TapIx)]).isSome
    | _ => false) = true := by decide +kernel

/-- Refutes O35: at the hold limit of port 3 a shed drops one of the two entries of block 0, the drain does not end, and tap 5
stands, where the statement has it gone. -/
theorem not_limitExpiries : ¬ Obligations.LimitExpiries := by
  intro ⟨_, hhold⟩
  obtain ⟨t, hexec, -, -, -, -, -, htaps⟩ := (hhold 3 twinState (by decide +kernel)).2 (by decide +kernel) (by decide +kernel)
    (by decide +kernel)
  have hgone : t.taps[(5 : TapIx)] = none :=
    (htaps twinState_blocks 5 twinTap twinStream (by decide +kernel) (by decide +kernel)).2 rfl (by simp [twinStream])
      twinState_keepsNone
  have hstands := twinState_tapStands
  rw [hexec] at hstands
  simp [hgone] at hstands

end Sys2Proof.Machine
end

section
namespace Sys2Proof.Machine

/-! ### A stream at the end of an event: as it stood, in the drain sets where it stood, or FREE (R32, R98, R99) -/

/-- A stream without its ease, its blocks, its tap list and its close order. -/
def Stream.kept (r : Stream) : Stream := { r with eased := false, fifo := [], taps := [], closeBy := none }

def State.keptOf (s : State) (st : StreamIx) : Option Stream := (s.streams[st]).map Stream.kept

/-- What stands of one stream, with the drain sets. -/
def State.placed (st : StreamIx) (s : State) : Option Stream × Vector (List StreamIx) 12 := (s.keptOf st, s.drainSets)

section
variable {s : State} {st a : StreamIx} {d : PostItem}

theorem placed_modStream {f : Stream → Stream} (h : st = a → ∀ r, (f r).kept = r.kept) :
    (modStream a f s).placed st = s.placed st := by
  refine Prod.ext ?_ rfl
  simp only [State.placed, State.keptOf, modStream, vget_set]
  split
  · rename_i he
    have hf := h he
    subst he
    cases s.streams[st] <;> simp [hf]
  · rfl

theorem placed_removeTap (t : TapIx) : (removeTap t s).placed st = s.placed st := by
  cases hx : s.taps[t] with
  | none => rw [removeTap_none hx]
  | some x =>
    obtain ⟨sto, he⟩ := removeTap_some hx
    rw [he]
    exact placed_modStream (f := Stream.loses t x.pending) (a := x.stream) fun _ _ => rfl

theorem placed_answerAs (o : Origin) (r : ResultCode) (b : List Byte) : (answerAs d o r b s).placed st = s.placed st := by
  obtain ⟨_, _, _, he, -⟩ := answerAs_spec d o r b s
  rw [he]
  rfl

/-- The end of the drain of another stream. -/
theorem placed_endDrain (h : st ≠ a) : (endDrain d a s).placed st = s.placed st := by
  unfold endDrain
  split
  · rfl
  · rename_i r _
    have htaps := each_frame (g := State.placed st) r.taps (f := fun t s => s |> postConsumer t .streamEnded |> removeTap t)
      (fun t u => (placed_removeTap t).trans (by rw [postConsumer_eq]; rfl)) s
    rw [placed_modStream fun e => absurd e h]
    split
    · exact (placed_answerAs ..).trans htaps
    · exact htaps

theorem freeStream_other (h : st ≠ a) : (freeStream a s).keptOf st = s.keptOf st ∧
    ∀ p : PortIx, st ∈ (freeStream a s).drainSets[p] ↔ st ∈ s.drainSets[p] := by
  have hsets : ∀ u : State, ∀ p : PortIx, st ∈ (each allPorts (fun p s => setDrainSet p ((s.drainSets[p]).filter (· != a)) s) u).drainSets[p] ↔
      st ∈ u.drainSets[p] := fun u =>
    each_induct (P := fun w => ∀ p : PortIx, st ∈ w.drainSets[p] ↔ st ∈ u.drainSets[p]) (fun q _ w hw p => by
      simp only [setDrainSet, vget_set]
      split
      · subst_vars
        rw [List.mem_filter, hw]
        simp [h]
      · exact hw p) u fun _ => Iff.rfl
  have hkept : (freeStream a s).keptOf st = s.keptOf st := by
    by_cases hu : s.uOf a = 0
    · obtain ⟨_, he⟩ := freeStream_eq hu
      rw [he]
      simp only [State.keptOf, vget_set, h, if_false]
    · rw [freeStream, if_neg hu]
  refine ⟨hkept, ?_⟩
  unfold freeStream
  split
  · exact hsets _
  · exact fun _ => Iff.rfl

/-- In a later state of its event a stream stands as it did, in the same drain sets, or it is FREE and in none. -/
def Stands (st : StreamIx) (s u : State) : Prop :=
  u.gone st ∨ u.keptOf st = s.keptOf st ∧ ∀ p : PortIx, st ∈ u.drainSets[p] ↔ st ∈ s.drainSets[p]

theorem Stands.of_placed {u w : State} (h : Stands st s u) (hp : w.placed st = u.placed st) (hn : u.gone st → w.gone st) :
    Stands st s w := by
  refine h.imp hn fun ⟨hk, hd⟩ => ⟨(congrArg Prod.fst hp).trans hk, fun p => ?_⟩
  rw [show w.drainSets = u.drainSets from congrArg Prod.snd hp]
  exact hd p

theorem stands_settleDrain {u : State} (h : Stands st s u) : Stands st s (settleDrain d a u) := by
  rcases h with h | ⟨hk, hd⟩
  · exact .inl (((gone_keeps st).drains d).settleDrain h)
  · cases he : u.isEmptied a with
    | false => rw [settleDrain_of_not d he]; exact .inr ⟨hk, hd⟩
    | true =>
      by_cases hst : st = a
      · subst hst; exact .inl (settleDrain_frees he)
      · unfold settleDrain
        split
        · exact .inr ⟨hk, hd⟩
        · split
          · obtain ⟨hk', hd'⟩ := freeStream_other (s := if (‹Stream›).drainDeadline.isSome = true then endDrain d a u else u) hst
            have hp : (if (‹Stream›).drainDeadline.isSome = true then endDrain d a u else u).placed st = u.placed st := by
              split
              · exact placed_endDrain hst
              · rfl
            refine .inr ⟨hk'.trans ((congrArg Prod.fst hp).trans hk), fun p => (hd' p).trans ?_⟩
            rw [show State.drainSets _ = u.drainSets from congrArg Prod.snd hp]
            exact hd p
          · exact .inr ⟨hk, hd⟩

/-- What the end of an event leaves of a stream. -/
theorem finish_stands (s0 w : State) (st : StreamIx) : Stands st w (finish s0 w) := by
  have hsettle : Stands st w (settleDrains s0 w) := each_induct (P := Stands st w) (fun a _ u hu => by
    split
    · exact hu
    · exact stands_settleDrain hu) w (.inr ⟨rfl, fun _ => Iff.rfl⟩)
  have hease : ∀ u, (judgeAllEase s0 u).placed st = u.placed st := fun u => each_frame (g := State.placed st) allStreams
    (fun a u => by
      split
      · rfl
      · cases hr : u.streams[a] with
        | none => simp only [judgeEase, hr]
        | some r =>
          have hset : modStream a (fun r' => { r' with eased := r.judged }) u = { u with
              streams := u.streams.set a (some { r with eased := r.judged }) } := by simp only [modStream, hr, Option.map_some]
          rw [judgeEase_eq hr]
          exact (congrArg (State.placed st) hset.symm).trans (placed_modStream fun _ _ => rfl)) u
  have hroles : ∀ u, (postRoles s0 u).placed st = u.placed st := fun u => by
    obtain ⟨_, _, he, -⟩ := postRoles_spec s0 u
    rw [he]; rfl
  have hflush : ∀ u, (flush u).placed st = u.placed st := fun u => flush_frame (State.placed st) (fun _ => by rfl) u
  have hfare : ∀ u, (queueFarewells s0 u).placed st = u.placed st := fun u => each_frame (g := State.placed st) allPorts
    (fun p u => by
      split
      · rfl
      · unfold queueFarewell; split <;> rfl) u
  have hkeep := gone_keeps st
  exact (((hsettle.of_placed (hease _) hkeep.judgeAllEase).of_placed (hroles _) hkeep.postRoles).of_placed (hflush _)
    hkeep.flush).of_placed (hfare _) hkeep.queueFarewells

end

end Sys2Proof.Machine
end

section
namespace Sys2Proof.Machine

/-! ### An origin at the end of an event: what it holds goes on, with notices behind it (R98, R158, R159) -/

/-- Posts that bring an origin notices alone, and S nothing. -/
def Mute (o : Origin) (x : List Post) : Prop := OnlyNotices o x ∧ (o = .service → noticesTo o x = [])

theorem mute_nil (o : Origin) : Mute o [] := ⟨fun _ hx => (List.not_mem_nil hx).elim, fun _ => rfl⟩

theorem mute_append {o : Origin} {a b : List Post} (ha : Mute o a) (hb : Mute o b) : Mute o (a ++ b) :=
  ⟨onlyNotices_append ha.1 hb.1, fun e => by rw [noticesTo_append, ha.2 e, hb.2 e]; rfl⟩

/-- Notices to ports, or items to other origins. -/
theorem mute_of_dest {o : Origin} {x : List Post} (h : OnlyNotices o x) (hd : o = .service → ∀ y ∈ x, y.dest ≠ .service) : Mute o x :=
  ⟨h, fun e => by subst e; exact (notTo_service (hd rfl)).2⟩

theorem mute_of_ne {o : Origin} {x : List Post} (h : ∀ y ∈ x, y.dest ≠ o) : Mute o x :=
  mute_of_dest (fun y hy e => absurd e (h y hy)) fun e => e ▸ h

/-- No drain answers an order of the origin: none is RUNNING, or it has no close order pending. -/
def State.settled (u : State) (o : Origin) : Prop :=
  (∀ i c, (u.origin o).bind (·.slot) ≠ some ⟨i, c, none⟩) ∨ ∀ st, ¬ u.closes st o

theorem noClose_modStream {f : Stream → Stream} {o : Origin} (hf : ∀ r, (f r).closeBy = r.closeBy ∨ (f r).closeBy = none) {a : StreamIx}
    {s : State} (h : ∀ st, ¬ s.closes st o) (st : StreamIx) : ¬ (modStream a f s).closes st o := by
  rintro ⟨r', hr', hc⟩
  simp only [modStream, vget_set] at hr'
  split at hr'
  · subst_vars
    obtain ⟨r, hr, rfl⟩ := Option.map_eq_some_iff.mp hr'
    rcases hf r with he | he
    · exact h _ ⟨r, hr, he.symm.trans hc⟩
    · rw [he] at hc; cases hc
  · exact h st ⟨r', hr', hc⟩

/-- The end of an event puts no close order on a stream. -/
theorem noClose_keeps (o : Origin) : EndKeeps (fun s => ∀ st, ¬ s.closes st o) where
  removeTap t s hs := by
    cases hx : s.taps[t] with
    | none => rwa [removeTap_none hx]
    | some x =>
      obtain ⟨sto, he⟩ := removeTap_some hx
      rw [he]
      exact noClose_modStream (f := Stream.loses t x.pending) (a := x.stream) (fun _ => .inl rfl) hs
  modOrigin o' f s hs := by cases o' <;> exact hs
  posts _ _ hs := hs
  freeReads _ _ hs := hs
  ended _ _ hs := noClose_modStream (fun _ => .inr rfl) hs
  freed a s _ _ _ hs st := by
    rintro ⟨r', hr', hc⟩
    simp only [vget_set] at hr'
    split at hr'
    · cases hr'
    · exact hs st ⟨r', hr', hc⟩
  drained _ _ _ hs := hs
  eased _ b _ hs := noClose_modStream (f := fun r => { r with eased := b }) (fun _ => .inl rfl) hs

/-- In a later state of its event the origin stands, and nothing but notices has been posted to it, to S nothing. -/
def TellsOnly (o : Origin) (s u : State) : Prop :=
  u.origin o = s.origin o ∧ u.settled o ∧ ∃ b, u.posts = s.posts ++ b ∧ Mute o b

theorem TellsOnly.refl {o : Origin} {s : State} (h : s.settled o) : TellsOnly o s s :=
  ⟨rfl, h, [], (List.append_nil _).symm, mute_nil o⟩

section
variable {o : Origin} {s u u' : State}

theorem TellsOnly.posts {x : List Post} (h : TellsOnly o s u) (ho : u'.origin o = u.origin o)
    (hc : (∀ st, ¬ u.closes st o) → ∀ st, ¬ u'.closes st o) (hp : u'.posts = u.posts ++ x) (hx : Mute o x) : TellsOnly o s u' := by
  obtain ⟨horigin, hset, b, hb, hm⟩ := h
  exact ⟨ho.trans horigin, hset.imp (fun h => by rw [ho]; exact h) hc, b ++ x, by rw [hp, hb, List.append_assoc], mute_append hm hx⟩

theorem TellsOnly.same (h : TellsOnly o s u) (ho : u'.origin o = u.origin o)
    (hc : (∀ st, ¬ u.closes st o) → ∀ st, ¬ u'.closes st o) (hp : u'.posts = u.posts) : TellsOnly o s u' :=
  h.posts ho hc (x := []) (hp.trans (List.append_nil _).symm) (mute_nil o)

theorem TellsOnly.removeTap {t : TapIx} (h : TellsOnly o s u) : TellsOnly o s (removeTap t u) := by
  have hsame : (Machine.removeTap t u).origin o = u.origin o ∧ (Machine.removeTap t u).posts = u.posts := by
    cases hx : u.taps[t] with
    | none => rw [removeTap_none hx]; exact ⟨rfl, rfl⟩
    | some x =>
      obtain ⟨_, he⟩ := removeTap_some hx
      rw [he]
      exact ⟨by cases o <;> rfl, rfl⟩
  exact h.same hsame.1 ((noClose_keeps o).removeTap t u) hsame.2

theorem TellsOnly.answered {d : PostItem} {o' : Origin} (h : TellsOnly o s u)
    (hc : o' = o → ∀ i c, (u.origin o).bind (·.slot) ≠ some ⟨i, c, none⟩) : TellsOnly o s (answerAs d o' .done [] u) := by
  by_cases he : o' = o
  · subst he
    rw [answerAs_idle (hc rfl)]
    exact h
  · obtain ⟨_, _, x, ha, hx⟩ := answerAs_spec d o' .done [] u
    obtain ⟨horigin, hdest⟩ := hx o (Ne.symm he)
    exact h.posts horigin (((noClose_keeps o).drains d).answered o' u) (by rw [ha]) (mute_of_ne hdest)

theorem TellsOnly.endDrain {d : PostItem} {st : StreamIx} (h : TellsOnly o s u) : TellsOnly o s (endDrain d st u) := by
  have hended : ∀ w, TellsOnly o s w → TellsOnly o s (modStream st (fun r => { r with closeBy := none, drainDeadline := none }) w) :=
    fun w hw => hw.same (by cases o <;> rfl) ((noClose_keeps o).ended st w) rfl
  unfold Machine.endDrain
  split
  · exact h
  · rename_i r hr
    have htaps : TellsOnly o s (each r.taps (fun t s => s |> postConsumer t .streamEnded |> Machine.removeTap t) u) :=
      each_induct (P := TellsOnly o s) (fun t _ w hw => TellsOnly.removeTap (by
        rw [postConsumer_eq]
        exact hw.posts (by cases o <;> rfl) id rfl
          (mute_of_dest (onlyNotices_consumerPosts o w _ _) fun _ => consumerPosts_dest))) u h
    refine hended _ ?_
    split
    · rename_i o' hc
      refine htaps.answered fun e => ?_
      subst e
      rw [htaps.1, ← h.1]
      exact h.2.1.resolve_right fun hn => hn st ⟨r, hr, hc⟩
    · exact htaps

theorem TellsOnly.settleDrain {d : PostItem} {st : StreamIx} (h : TellsOnly o s u) : TellsOnly o s (settleDrain d st u) := by
  have hfree : ∀ w, TellsOnly o s w → TellsOnly o s (freeStream st w) := fun w hw => by
    by_cases hu : w.uOf st = 0
    · obtain ⟨_, he⟩ := freeStream_eq hu
      rw [he]
      refine hw.same (by cases o <;> rfl) (fun hn a => ?_) rfl
      rintro ⟨r', hr', hc⟩
      simp only [vget_set] at hr'
      split at hr'
      · cases hr'
      · exact hn a ⟨r', hr', hc⟩
    · rw [freeStream, if_neg hu]; exact hw
  unfold Machine.settleDrain
  split
  · exact h
  · split
    · refine hfree _ ?_
      split
      · exact h.endDrain
      · exact h
    · exact h

theorem TellsOnly.settleDrains {s0 : State} (h : TellsOnly o s u) : TellsOnly o s (settleDrains s0 u) :=
  each_induct (P := TellsOnly o s) (fun st _ w hw => by
    split
    · exact hw
    · exact hw.settleDrain) u h

theorem TellsOnly.judgeAllEase {s0 : State} (h : TellsOnly o s u) : TellsOnly o s (judgeAllEase s0 u) :=
  each_induct (P := TellsOnly o s) (fun st _ w hw => by
    split
    · exact hw
    · cases hr : w.streams[st] with
      | none => simp only [judgeEase, hr]; exact hw
      | some r =>
        have hset : modStream st (fun r' => { r' with eased := r.judged }) w = { w with
            streams := w.streams.set st (some { r with eased := r.judged }) } := by simp only [modStream, hr, Option.map_some]
        have hn := fun hn => (noClose_keeps o).eased st r.judged w hn
        rw [hset] at hn
        rw [judgeEase_eq hr]
        exact hw.posts (by cases o <;> rfl) hn rfl (mute_of_dest (toProducer_noticesTo ..).1 fun _ => toProducer_dest)) u h

theorem TellsOnly.roleTo {c : Option Source} {n : Nat} (h : TellsOnly o s u) : TellsOnly o s (roleTo c n u) := by
  rcases c with _ | _ | p
  · exact h
  · exact h
  · have hpost : ∃ b freeReads, postRole p n u = { u with
        posts := u.posts ++ [⟨.port p, .notice .referenceRole b⟩], freeReads := freeReads } := by
      unfold postRole; split <;> exact ⟨_, _, rfl⟩
    obtain ⟨b, fr, he⟩ := hpost
    rw [show Machine.roleTo (some (.port p)) n u = postRole p n u from rfl, he]
    refine h.posts (by cases o <;> rfl) id rfl (mute_of_dest (fun y hy _ => ?_) fun _ y hy => ?_) <;> rw [List.mem_singleton.mp hy]
    · exact ⟨_, _, rfl⟩
    · simp

theorem TellsOnly.postRoles {s0 : State} (h : TellsOnly o s u) : TellsOnly o s (postRoles s0 u) := by
  rw [postRoles_eq]
  split
  · exact h
  · exact h.roleTo.roleTo

end

/-! ### A queue that has grown -/

/-- The order in the slot stands, and entries have joined the queue behind those that stand there. -/
def OriginState.grownTo (q q' : OriginState) : Prop := q'.slot = q.slot ∧ q.queue <+: q'.queue

theorem grownTo_refl (q : OriginState) : q.grownTo q := ⟨rfl, List.prefix_refl _⟩

theorem OriginState.grownTo.trans {a b c : OriginState} (h : a.grownTo b) (h' : b.grownTo c) : a.grownTo c :=
  ⟨h'.1.trans h.1, h.2.trans h'.2⟩

theorem placeNotice_grown (k : NoticeKind) (b : List Byte) (q : OriginState) : q.grownTo (q.placeNotice k b) := by
  rcases placeNotice_cases k b q with ⟨-, he⟩ | ⟨-, -, he⟩ | ⟨-, -, he⟩ <;> rw [he]
  · exact grownTo_refl q
  · exact ⟨rfl, List.prefix_append ..⟩
  · exact grownTo_refl q

theorem placeReply_grown (q : OriginState) : q.grownTo q.placeReply := by
  unfold OriginState.placeReply
  split
  · split
    · exact grownTo_refl q
    · exact ⟨rfl, List.prefix_append ..⟩
  · exact grownTo_refl q

theorem told_grown (l : Notices) : ∀ q : OriginState, q.grownTo (q.told l) := by
  induction l with
  | nil => exact grownTo_refl
  | cons x l ih => exact fun q => (placeNotice_grown x.1 x.2 q).trans (ih _)

/-- A FAREWELL joins a queue behind what stands there. -/
theorem queueFarewells_grown {s0 u : State} {o : Origin} {q : OriginState} (h : u.origin o = some q) :
    ∃ q', (queueFarewells s0 u).origin o = some q' ∧ q.grownTo q' := by
  refine each_induct (P := fun w => ∃ q', w.origin o = some q' ∧ q.grownTo q') (fun p _ w hw => ?_) u ⟨q, h, grownTo_refl q⟩
  split
  · exact hw
  · unfold queueFarewell
    split
    · obtain ⟨q', hq', hg⟩ := hw
      rw [modOrigin_origin]
      split
      · subst_vars
        exact ⟨{ q'.placeNotice .farewell [] with closed := true }, by rw [hq']; rfl, hg.trans (placeNotice_grown .farewell [] q')⟩
      · exact ⟨q', hq', hg⟩
    · exact hw

/-! ### The end of an event at an origin that no drain answers -/

section
variable {o : Origin} {s0 w : State} (h : w.settled o) (hr : w.restarting = false)
include h

/-- The state of the event in which all is posted. -/
theorem finish_posted : ∃ v, finish s0 w = queueFarewells s0 (flush v) ∧ TellsOnly o w v ∧ v.restarting = w.restarting :=
  ⟨_, rfl, (TellsOnly.refl h).settleDrains.judgeAllEase.postRoles, by
    have hk := restarting_keeps w.restarting
    exact hk.postRoles (hk.judgeAllEase ((hk.drains _).settleDrains rfl))⟩

include hr

/-- An order answered, the notices of the event behind the reply. -/
theorem finish_replies {a b : List Post} {q : OriginState} (hq : w.origin o = some q) (hp : w.posts = a ++ ⟨o, .reply⟩ :: b)
    (ha : OnlyNotices o a) (hb : OnlyNotices o b) :
    (∃ q', (finish s0 w).origin o = some q' ∧ q.placeReply.grownTo q') ∧
    (o = .service → (finish s0 w).origin o = some (q.placeReply.told (ranked (noticesTo o (a ++ b))))) := by
  obtain ⟨v, hfin, ⟨horigin, -, x, hx, hm⟩, hres⟩ := finish_posted (s0 := s0) h
  have hflush := flush_reply_notices (o := o) (hres.trans hr) (a := a) (b := b ++ x)
    (by rw [hx, hp, List.append_assoc]; rfl) ha (onlyNotices_append hb hm.1)
  rw [horigin, hq, Option.map_some] at hflush
  rw [hfin]
  refine ⟨?_, fun e => ?_⟩
  · obtain ⟨q', hq', hg⟩ := queueFarewells_grown (s0 := s0) hflush
    exact ⟨q', hq', (told_grown _ _).trans hg⟩
  · subst e
    rw [← List.append_assoc, noticesTo_append, hm.2 rfl, List.append_nil] at hflush
    exact (congrArg (fun v : Service => some v.origin) (queueFarewells_service ..)).trans hflush

/-- Notices alone. -/
theorem finish_notices {q : OriginState} (hq : w.origin o = some q) (hp : OnlyNotices o w.posts) :
    (∃ q', (finish s0 w).origin o = some q' ∧ q.grownTo q') ∧
    (o = .service → (finish s0 w).origin o = some (q.told (ranked (noticesTo o w.posts)))) := by
  obtain ⟨v, hfin, ⟨horigin, -, x, hx, hm⟩, hres⟩ := finish_posted (s0 := s0) h
  have hflush := flush_origin (o := o) (s := v) (by rw [hx]; exact onlyNotices_append hp hm.1)
  rw [State.told, if_neg (by rw [hres, hr]; simp), horigin, hq, Option.map_some] at hflush
  rw [hfin]
  refine ⟨?_, fun e => ?_⟩
  · obtain ⟨q', hq', hg⟩ := queueFarewells_grown (s0 := s0) hflush
    exact ⟨q', hq', (told_grown _ _).trans hg⟩
  · subst e
    rw [hx, noticesTo_append, hm.2 rfl, List.append_nil] at hflush
    exact (congrArg (fun v : Service => some v.origin) (queueFarewells_service ..)).trans hflush

end

end Sys2Proof.Machine
end

section
namespace Sys2Proof.Machine

/-! ### What a planned end of service takes from the other blocks (R32, R37, R65, R96, R131, R138) -/

/-- The streams once those of a departing port drain. -/
def State.drainedBy (s : State) (p : PortIx) : Vector (Option Stream) 64 :=
  Vector.ofFn (fun st : StreamIx =>
    if s.produces p st then (s.streams[st]).map (Stream.drains s.tb.beat s.settings.drainLimit) else s.streams[st])

theorem drainedBy_stream (s : State) (p : PortIx) (st : StreamIx) : (s.drainedBy p)[st] =
    if s.produces p st then (s.streams[st]).map (Stream.drains s.tb.beat s.settings.drainLimit) else s.streams[st] := by
  simp only [State.drainedBy, Fin.getElem_fin, Vector.getElem_ofFn, Fin.eta]

theorem leaveStreams_drain (p : PortIx) (s : State) : leaveStreams false p s = { s with streams := s.drainedBy p } := by
  have h := each_streams (f := enterDraining) (s := s) (fun _ o => o.map (fun r => if r.state = .draining then r
      else r.drains s.tb.beat s.settings.drainLimit)) (fun _ _ => []) (nodup_allStreams.filter (s.produces p))
    (fun st _ streams posts => by rw [List.append_nil]; rfl) s.streams s.posts
  have hnil : (allStreams.filter (s.produces p)).flatMap (fun _ : StreamIx => ([] : List Post)) = [] := flatMap_nil' _
  rw [hnil, List.append_nil] at h
  refine (show leaveStreams false p s = _ from h).trans ?_
  have hstreams : Vector.ofFn (fun st : StreamIx => if st ∈ allStreams.filter (s.produces p)
      then (s.streams[st]).map (fun r => if r.state = .draining then r else r.drains s.tb.beat s.settings.drainLimit)
      else s.streams[st]) = s.drainedBy p := by
    refine congrArg Vector.ofFn (funext fun st => ?_)
    simp only [List.mem_filter, mem_allStreams, true_and]
    split
    · rename_i hp
      cases hr : s.streams[st] with
      | none => rfl
      | some r =>
        have hlive : r.state ≠ .draining := fun e => by
          rw [produces_some hr, Stream.isLive, e] at hp
          cases hp
        rw [Option.map_some, Option.map_some, if_neg hlive]
    · rfl
  rw [hstreams]

/-- A planned teardown: the port's streams drain, its taps, its candidacy and its subscriptions go. -/
theorem teardown_drains (p : PortIx) (w : State) : ∃ streams taps store lines, teardown false p w = { w with
      streams := streams, taps := taps, store := store, lines := lines, triggers := w.triggers.set p .initial
      tb := (w.withdrawn p).1, posts := w.posts ++ postsTo .service (w.withdrawn p).2 } ∧
    (∀ (t : TapIx) x, taps[t] = some x → x.consumer ≠ p) ∧ (∀ l : LineIx, (lines[l]).subscribers[p] = false) ∧
    ∀ st : StreamIx, ∃ fifo left, streams[st] = ((w.drainedBy p)[st]).map (fun r => { r with fifo := fifo, taps := left }) := by
  obtain ⟨streams, taps, store, he, -, hstreams⟩ := removePortTaps_untaps p (leaveStreams false p w)
  have hgone : ∀ (t : TapIx) x, taps[t] = some x → x.consumer ≠ p := fun t x hx =>
    removePortTaps_gone (s := leaveStreams false p w) (by rw [he]; exact hx)
  obtain ⟨lines, hl, hsub⟩ := leaveLines_spec p (withdrawPort p (removePortTaps p (leaveStreams false p w)))
  refine ⟨streams, taps, store, lines, ?_, hgone, hsub, fun st => ?_⟩
  · have hcongr := withdrawn_congr (s := w) (u := { w with streams := streams, taps := taps, store := store }) rfl rfl rfl p
    have ht : teardown false p w =
        emptyTriggers p (leaveLines p (withdrawPort p (removePortTaps p (leaveStreams false p w)))) := rfl
    rw [ht, hl, withdrawPort_eq, he, leaveStreams_drain, hcongr]
    rfl
  · obtain ⟨fifo, left, hst, -⟩ := hstreams st
    rw [leaveStreams_drain] at hst
    exact ⟨fifo, left, hst⟩

/-! ### The streams of a port that leaves service, at the end of the event -/

section
variable {p : PortIx} {s w y t : State} {st : StreamIx}

/-- The streams have been left by the port, and stand but for what an event may change besides. -/
def LeftBy (p : PortIx) (w y : State) (st : StreamIx) : Prop := y.keptOf st = ((w.drainedBy p)[st]).map Stream.kept

theorem kept_field {β : Type} {f : Stream → β} (hf : ∀ r, f r.kept = f r) {a b : Stream} (h : a.kept = b.kept) : f a = f b := by
  rw [← hf a, h, hf b]

variable (h : LeftBy p w y st) (ht : Stands st y t)
include h ht

theorem left_cases : t.streams[st] = none ∨ ∃ r', t.streams[st] = some r' ∧ ∃ r, (w.drainedBy p)[st] = some r ∧ r'.kept = r.kept := by
  rcases ht with hg | ⟨hk, -⟩
  · exact .inl hg.1
  · have hkept : t.keptOf st = _ := hk.trans h
    cases hr' : t.streams[st] with
    | none => exact .inl rfl
    | some r' =>
      rw [State.keptOf, hr', Option.map_some] at hkept
      obtain ⟨r, hr, he⟩ := Option.map_eq_some_iff.mp hkept.symm
      exact .inr ⟨r', rfl, r, hr, he.symm⟩

theorem left_produces : t.produces p st = false := by
  rcases left_cases h ht with hn | ⟨r', hr', r, hr, hk⟩
  · simp only [State.produces, hn]
  · have hlive : (r'.isLive && r'.producer == some p) = (r.isLive && r.producer == some p) :=
      kept_field (f := fun r => r.isLive && r.producer == some p) (fun _ => rfl) hk
    rw [produces_some hr', hlive]
    rw [drainedBy_stream] at hr
    cases hw : w.streams[st] with
    | none => rw [hw] at hr; simp at hr
    | some r0 =>
      rw [hw] at hr
      split at hr
      · cases hr; rfl
      · rename_i hp
        cases hr
        rw [← produces_some hw]
        simpa using hp

theorem left_drains {r : Stream} (hr : w.streams[st] = some r) (hp : w.produces p st = true)
    (hbeat : w.tb.beat = s.tb.beat) (hlimit : w.settings.drainLimit = s.settings.drainLimit) : Drains s t st r := by
  refine (left_cases h ht).imp_right ?_
  rintro ⟨r', hr', r1, hr1, hk⟩
  rw [drainedBy_stream, if_pos hp, hr, hbeat, hlimit, Option.map_some, Option.some.injEq] at hr1
  subst hr1
  have hf : ∀ {β : Type} (f : Stream → β), (∀ x, f x.kept = f x) → f r' = f (r.drains s.tb.beat s.settings.drainLimit) :=
    fun f hf => kept_field hf hk
  exact ⟨r', hr', hf _ fun _ => rfl, hf _ fun _ => rfl, hf _ fun _ => rfl, hf _ fun _ => rfl, hf _ fun _ => rfl,
    hf _ fun _ => rfl, hf _ fun _ => rfl, hf _ fun _ => rfl⟩

end

end Sys2Proof.Machine
end

section
namespace Sys2Proof.Machine

/-! ### An order that is answered first, in an event with further effects (R155, R156) -/

/-- The order of an origin has been answered, its reply is the first item posted; `q` is the origin with the answer in its
slot. -/
structure Replying (o : Origin) (q : OriginState) (u w : State) : Prop where
  shape : ∃ origins service, w = { u with origins := origins, service := service, posts := [⟨o, .reply⟩] }
  own : w.origin o = some q
  other : ∀ o', o' ≠ o → w.origin o' = u.origin o'
  answered : ∀ i c, q.slot ≠ some ⟨i, c, none⟩

section
variable {o : Origin} {ident : Byte} {c : OrderCode} {r : ResultCode} {b : List Byte} {q : OriginState} {u : State}

theorem replying_answer (hq : u.origin o = some q) (hp : u.posts = []) :
    Replying o { q with slot := some ⟨ident, c.byte, some (r, b)⟩ } u (answer o r b (running o ident c u)) := by
  rw [answer_running hq]
  refine ⟨?_, ?_, fun o' ho => ?_, fun i c' h => by simp at h⟩
  · refine ⟨(modOrigin o (fun q => { q with slot := some ⟨ident, c.byte, some (r, b)⟩ }) u).origins,
      (modOrigin o (fun q => { q with slot := some ⟨ident, c.byte, some (r, b)⟩ }) u).service, ?_⟩
    have hposts : ∀ x : List Post, [(⟨o, .reply⟩ : Post)] = u.posts ++ [⟨o, .reply⟩] := fun _ => by rw [hp]; rfl
    rw [hposts []]
    cases o <;> rfl
  · have h := modOrigin_origin o o (fun q => { q with slot := some ⟨ident, c.byte, some (r, b)⟩ }) u
    rw [if_pos rfl, hq] at h
    cases o <;> exact h
  · have h := modOrigin_origin o o' (fun q => { q with slot := some ⟨ident, c.byte, some (r, b)⟩ }) u
    rw [if_neg ho] at h
    cases o' <;> exact h

/-- The reply of an origin whose queue holds none joins it. -/
theorem placeReply_free (h : q.hasReply = false) : OriginState.placeReply { q with slot := some ⟨ident, c.byte, some (r, b)⟩ } =
    { q with slot := some ⟨ident, c.byte, some (r, b)⟩, queue := q.queue ++ [.reply true ident c.byte r b] } := by
  have hr : OriginState.hasReply { q with slot := some ⟨ident, c.byte, some (r, b)⟩ } = false := h
  simp only [OriginState.placeReply, hr, Bool.false_eq_true, if_false]

theorem replied_origin (hq : u.origin o = some q) (h : q.hasReply = false) (o' : Origin) :
    (replied o ident c r b u).origin o' = if o' = o
      then some (OriginState.placeReply { q with slot := some ⟨ident, c.byte, some (r, b)⟩ }) else u.origin o' := by
  rw [replied, modOrigin_origin, placeReply_free h]
  split
  · subst_vars; rw [hq]; rfl
  · rfl

theorem replied_streams : (replied o ident c r b u).streams = u.streams := by cases o <;> rfl
theorem replied_restarting : (replied o ident c r b u).restarting = u.restarting := by cases o <;> rfl
theorem replied_ports : (replied o ident c r b u).ports = u.ports := by cases o <;> rfl
theorem replied_tb : (replied o ident c r b u).tb = u.tb := by cases o <;> rfl
theorem replied_settings : (replied o ident c r b u).settings = u.settings := by cases o <;> rfl
theorem replied_clock : (replied o ident c r b u).clock = u.clock := by cases o <;> rfl

end

/-- The withdrawal of a candidacy reads the port's state, the timebase, the settings and the clock. -/
theorem withdrawal_congr {s u : State} {p : PortIx} (hp : (u.ports[p]).state = (s.ports[p]).state) (ht : u.tb = s.tb)
    (hs : u.settings = s.settings) (hc : u.clock = s.clock) : u.withdrawal p = s.withdrawal p := by
  simp only [State.withdrawal, hp, ht]
  rw [selection_congr (s := { s with tb := { s.tb with candidates := s.tb.candidates.set p none } })
    (u := { u with tb := { s.tb with candidates := s.tb.candidates.set p none } }) rfl hs hc]

theorem withdrawal_active {s : State} {p : PortIx} (h : (s.ports[p]).state = .active) : s.withdrawal p = s.withdrawn p := by
  simp only [State.withdrawal, State.withdrawn, h, true_and]

/-! ### A reset before its event ends (R37, R40) -/

/-- What a reset does before the port itself goes out of service: the teardown of an ACTIVE port, and nothing of another. -/
def ResetAround (p : PortIx) (w v : State) : Prop :=
  ∃ streams taps store lines triggers, v = { w with
    streams := streams, taps := taps, store := store, lines := lines, triggers := triggers, tb := (w.withdrawal p).1
    posts := w.posts ++ postsTo .service (w.withdrawal p).2 } ∧
  (∀ st r', streams[(st : StreamIx)] = some r' → ∃ r, w.streams[st] = some r ∧ r'.closeBy = r.closeBy) ∧
  ((w.ports[p]).state = .active → (∀ (t : TapIx) x, taps[t] = some x → x.consumer ≠ p) ∧
    (∀ l : LineIx, (lines[l]).subscribers[p] = false) ∧
    ∀ st : StreamIx, ∃ fifo left, streams[st] = ((w.drainedBy p)[st]).map (fun r => { r with fifo := fifo, taps := left }))

theorem drainedBy_closeBy {p : PortIx} {w : State} {st : StreamIx} {r' : Stream} (h : (w.drainedBy p)[st] = some r') :
    ∃ r, w.streams[st] = some r ∧ r'.closeBy = r.closeBy := by
  rw [drainedBy_stream] at h
  split at h
  · obtain ⟨r, hr, rfl⟩ := Option.map_eq_some_iff.mp h
    exact ⟨r, hr, rfl⟩
  · exact ⟨r', h, rfl⟩

theorem teardown_around {p : PortIx} {w : State} (h : (w.ports[p]).state = .active) : ResetAround p w (teardown false p w) := by
  obtain ⟨streams, taps, store, lines, he, htaps, hlines, hstreams⟩ := teardown_drains p w
  refine ⟨streams, taps, store, lines, _, by rw [withdrawal_active h]; exact he, fun st r' hr' => ?_, fun _ => ⟨htaps, hlines, hstreams⟩⟩
  obtain ⟨fifo, left, hst⟩ := hstreams st
  rw [hst] at hr'
  obtain ⟨r, hr, rfl⟩ := Option.map_eq_some_iff.mp hr'
  exact drainedBy_closeBy (r' := r) hr

theorem around_refl {p : PortIx} {w : State} (h : (w.ports[p]).state ≠ .active) : ResetAround p w w := by
  refine ⟨w.streams, w.taps, w.store, w.lines, w.triggers, ?_, fun st r' hr' => ⟨r', hr', rfl⟩, fun e => absurd e h⟩
  simp only [State.withdrawal, h, false_and, if_false, postsTo, List.map_nil, List.append_nil]

/-- The state in which a reset leaves its port. -/
def State.resetTo (s : State) (p : PortIx) (vacate : Bool) : PortState :=
  if !vacate && (s.ports[p]).presence && s.settings.enable[p] then .listening else .vacant

/-- The record of a port whose fill run and failures a reset has cleared. -/
def Port.cleared (x : Port) : Port := { x with fillRun := 0, failures := 0 }

theorem resetTo_out (s : State) (p : PortIx) (vacate : Bool) :
    s.resetTo p vacate = .vacant ∨ s.resetTo p vacate = .listening ∨ s.resetTo p vacate = .faulted := by
  unfold State.resetTo
  split
  · exact .inr (.inl rfl)
  · exact .inl rfl

theorem resetPort_eq (p : PortIx) (vacate : Bool) (cause : PortCause) (w : State) : ∃ v, ResetAround p w v ∧
    resetPort p vacate cause w = (modPort p Port.cleared v).withPortOut p (w.resetTo p vacate) cause := by
  by_cases h : (w.ports[p]).state = .active
  · refine ⟨teardown false p w, teardown_around h, ?_⟩
    rw [← moveTo_out (resetTo_out w p vacate)]
    simp only [resetPort, h, if_true]
    rfl
  · refine ⟨w, around_refl h, ?_⟩
    rw [← moveTo_out (resetTo_out w p vacate)]
    simp only [resetPort, h, if_false]
    rfl

theorem forgets_kept (o : Origin) (r : Stream) : (r.forgets o).kept = r.kept := by
  unfold Stream.forgets; split <;> rfl

theorem forgets_closeBy {o : Origin} {r : Stream} {o' : Origin} (h : (r.forgets o).closeBy = some o') : r.closeBy = some o' := by
  unfold Stream.forgets at h
  split at h
  · cases h
  · exact h

theorem clearedOut_posts (p : PortIx) (st : PortState) (cause : PortCause) (v : State) :
    ((modPort p Port.cleared v).withPortOut p st cause).posts = v.posts ++ postsTo .service
      [(.portEvent, portEventFields p (v.ports[p]).state st cause (v.ports[p]).frame)] := by
  simp only [State.withPortOut, modPort, vget_set, if_true]
  rfl

/-! ### A reset at the end of its event -/

section
variable {p : PortIx} {cause : PortCause} {vacate : Bool} {o : Origin} {q : OriginState} {s0 u w t : State}
  (h : Replying o q u w) (ht : t = finish s0 (resetPort p vacate cause w))
include h ht

/-- What a reset leaves of the port, and elsewhere. -/
theorem reset_leaves : (t.ports[p]).state = u.resetTo p vacate ∧ (t.ports[p]).failures = 0 ∧ (t.ports[p]).fillRun = 0 ∧
    t.HoldsNothing p ∧ SameElsewhere p u t ∧ t.tb = (u.withdrawal p).1 := by
  obtain ⟨origins, service, hw⟩ := h.shape
  obtain ⟨v, ⟨streams, taps, store, lines, triggers, hv, -, -⟩, hreset⟩ := resetPort_eq p vacate cause w
  have hwith : w.withdrawal p = u.withdrawal p := by subst hw; exact withdrawal_congr rfl rfl rfl rfl
  have hto : w.resetTo p vacate = u.resetTo p vacate := by subst hw; rfl
  rw [hwith] at hv
  rw [hreset, hto] at ht
  have hnothing : t.HoldsNothing p := ht ▸ holdsNothing_finish (resetTo_out u p vacate)
  have htab := tables_finish s0 ((modPort p Port.cleared v).withPortOut p (u.resetTo p vacate) cause)
  rw [← ht] at htab
  subst hw
  subst hv
  have hports : t.ports = (u.ports.set p ((u.ports[p]).cleared)).set p
      (((u.ports[p]).cleared).leaves (u.resetTo p vacate) u.clock.cycle) := by
    rw [htab.ports]; simp only [State.withPortOut, modPort, vget_set, if_true]
  have hport : t.ports[p] = ((u.ports[p]).cleared).leaves (u.resetTo p vacate) u.clock.cycle := by
    rw [hports, vget_set, if_pos rfl]
  have hrest : (t.ports[p]).failures = 0 ∧ (t.ports[p]).fillRun = 0 := by
    rw [hport]
    rcases resetTo_out u p vacate with e | e | e <;> rw [e] <;> exact ⟨rfl, rfl⟩
  have hother : ∀ {α : Type} (l : Vector α 12) (a : α) (r : PortIx), r ≠ p → (l.set p a)[r] = l[r] := fun l a r hr => by
    rw [vget_set, if_neg hr]
  refine ⟨by rw [hport, leaves_state], hrest.1, hrest.2, hnothing, ⟨?_, ?_, ?_, ?_, fun r hr => ⟨?_, ?_, ?_⟩, ?_, ?_, ?_, ?_⟩, ?_⟩
  · rw [hport, leaves_counters]; rfl
  · rw [hport, leaves_presence]; rfl
  · rw [htab.egress]; simp only [State.withPortOut, vget_set, if_true]; rfl
  · rw [htab.delays]; simp only [State.withPortOut, vget_set, if_true]; rfl
  · rw [hports, hother _ _ r hr, hother _ _ r hr]
  · rw [htab.delays]; exact hother _ _ r hr
  · rw [htab.egress]; exact hother _ _ r hr
  · unfold sameRackTime; rw [htab.clock]; exact ⟨rfl, rfl, rfl⟩
  · rw [htab.settings]; rfl
  · rw [htab.setup]; rfl
  · rw [htab.pins]; rfl
  · rw [htab.tb]; rfl

/-- A port that was ACTIVE stands in no table, and its streams drain. -/
theorem reset_nowhere {s : State} (hact : (u.ports[p]).state = .active) (hst : u.streams = s.streams)
    (hbeat : u.tb.beat = s.tb.beat) (hlimit : u.settings.drainLimit = s.settings.drainLimit) : t.StandsNowhere p ∧
      ∀ st r, s.streams[(st : StreamIx)] = some r → s.produces p st = true → Drains s t st r := by
  obtain ⟨origins, service, hw⟩ := h.shape
  obtain ⟨v, ⟨streams, taps, store, lines, triggers, hv, -, hact'⟩, hreset⟩ := resetPort_eq p vacate cause w
  have hwith : w.withdrawal p = u.withdrawn p := by
    rw [← withdrawal_active hact]; subst hw; exact withdrawal_congr rfl rfl rfl rfl
  rw [hwith] at hv
  obtain ⟨htaps, hlines, hstreams⟩ := hact' (by rw [hw]; exact hact)
  rw [hreset] at ht
  have htab := tables_finish s0 ((modPort p Port.cleared v).withPortOut p (w.resetTo p vacate) cause)
  rw [← ht] at htab
  have hleft : ∀ st, LeftBy p u ((modPort p Port.cleared v).withPortOut p (w.resetTo p vacate) cause) st := fun st => by
    obtain ⟨fifo, left, hs⟩ := hstreams st
    have hd : w.drainedBy p = u.drainedBy p := by subst hw; rfl
    have hy : ((modPort p Port.cleared v).withPortOut p (w.resetTo p vacate) cause).streams[st] =
        (streams[st]).map (Stream.forgets (.port p)) := by
      rw [hv]; exact vget_map ..
    rw [LeftBy, State.keptOf, hy, hs, hd, Option.map_map, Option.map_map]
    exact Option.map_congr fun r _ => forgets_kept (.port p) _
  have hstands : ∀ st, Stands st ((modPort p Port.cleared v).withPortOut p (w.resetTo p vacate) cause) t := fun st =>
    ht ▸ finish_stands s0 _ st
  refine ⟨⟨?_, fun st => left_produces (hleft st) (hstands st), ?_, ?_⟩, fun st r hr hp =>
    left_drains (hleft st) (hstands st) (by rw [hst]; exact hr) ?_ hbeat hlimit⟩
  · rw [ht]
    exact (untapped_keeps p).finish (by rw [hv]; exact htaps)
  · have hcand : (u.withdrawn p).1.candidates[p] = none := by rw [withdrawn_candidates, vget_set, if_pos rfl]
    rw [htab.tb, hv]; exact hcand
  · rw [htab.lines, hv]; exact hlines
  · simp only [State.produces, hst]; exact hp

variable (hres : u.restarting = false)
include hres

/-- What a reset has posted before its event ends, and where. -/
theorem reset_posted : ∃ y, t = finish s0 y ∧ y.restarting = false ∧ y.posts = [] ++ ⟨o, .reply⟩ :: (postsTo .service (u.withdrawal p).2 ++
      postsTo .service [(.portEvent, portEventFields p (u.ports[p]).state (u.resetTo p vacate) cause (u.ports[p]).frame)]) ∧
    (∀ o', o' ≠ .port p → y.origin o' = w.origin o') ∧
    ∀ o', (∀ st, ¬ u.closes st o') → ∀ st, ¬ y.closes st o' := by
  obtain ⟨origins, service, hw⟩ := h.shape
  obtain ⟨v, ⟨streams, taps, store, lines, triggers, hv, hclose, -⟩, hreset⟩ := resetPort_eq p vacate cause w
  have hwith : w.withdrawal p = u.withdrawal p := by subst hw; exact withdrawal_congr rfl rfl rfl rfl
  have hto : w.resetTo p vacate = u.resetTo p vacate := by subst hw; rfl
  rw [hwith] at hv
  rw [hreset, hto] at ht
  refine ⟨_, ht, ?_, ?_, fun o' ho' => ?_, fun o' hn st => ?_⟩
  · subst hw; subst hv; exact hres
  · rw [clearedOut_posts]
    subst hw; subst hv; rfl
  · subst hv
    cases o' with
    | service => rfl
    | port q' =>
      have hne : q' ≠ p := fun e => ho' (by rw [e])
      show (w.origins.set p none)[q'] = w.origins[q']
      rw [vget_set, if_neg hne]
  · rintro ⟨r', hr', hc⟩
    have hy : ((modPort p Port.cleared v).withPortOut p (u.resetTo p vacate) cause).streams[st] =
        (streams[st]).map (Stream.forgets (.port p)) := by
      rw [hv]; exact vget_map ..
    rw [hy] at hr'
    obtain ⟨r1, hr1, rfl⟩ := Option.map_eq_some_iff.mp hr'
    obtain ⟨r, hr, he⟩ := hclose st r1 hr1
    exact hn st ⟨r, by rw [hw] at hr; exact hr, he.symm.trans (forgets_closeBy hc)⟩

/-- The reply of the order stands in its origin's slot and queue, unless the origin's own port was reset. -/
theorem reset_replies (ho : o ≠ .port p) : ∃ q', t.origin o = some q' ∧ q.placeReply.grownTo q' := by
  obtain ⟨y, hy, hyres, hposts, horigin, -⟩ := reset_posted h ht hres
  have hown : y.origin o = some q := (horigin o ho).trans h.own
  rw [hy]
  exact (finish_replies (s0 := s0) (.inl (by rw [hown]; exact h.answered)) hyres hown hposts (fun _ hx => (List.not_mem_nil hx).elim)
    (onlyNotices_append (onlyNotices_postsTo o .service _) (onlyNotices_postsTo o .service _))).1

/-- What a reset tells S, where no drain answers S: behind its reply, if it has one. -/
theorem reset_told (hn : ∀ st, ¬ u.closes st .service) : t.origin .service =
    (if Origin.service = o then some q.placeReply else u.origin .service).map (.told
      ((.portEvent, portEventFields p (u.ports[p]).state (u.resetTo p vacate) cause (u.ports[p]).frame) :: (u.withdrawal p).2)) := by
  obtain ⟨y, hy, hyres, hposts, horigin, hclose⟩ := reset_posted h ht hres
  have hranked : ranked ((u.withdrawal p).2 ++
      [(.portEvent, portEventFields p (u.ports[p]).state (u.resetTo p vacate) cause (u.ports[p]).frame)]) =
      (.portEvent, portEventFields p (u.ports[p]).state (u.resetTo p vacate) cause (u.ports[p]).frame) :: (u.withdrawal p).2 :=
    ranked_swap (k := .timebaseEvent) (k' := .portEvent) (by decide) (withdrawal_kind u p) (by simp)
  have hnotices : ∀ l l' : Notices, noticesTo .service (postsTo .service l ++ postsTo .service l') = l ++ l' := fun l l' => by
    rw [noticesTo_append, noticesTo_postsTo, noticesTo_postsTo, if_pos rfl, if_pos rfl]
  have hsettled : y.settled .service := .inr (hclose .service hn)
  have hb := onlyNotices_append (onlyNotices_postsTo .service .service (u.withdrawal p).2) (onlyNotices_postsTo .service .service
    [(.portEvent, portEventFields p (u.ports[p]).state (u.resetTo p vacate) cause (u.ports[p]).frame)])
  rw [hy]
  by_cases ho : Origin.service = o
  · subst ho
    have hown : y.origin .service = some q := (horigin .service (by simp)).trans h.own
    rw [(finish_replies (s0 := s0) hsettled hyres hown hposts (fun _ hx => (List.not_mem_nil hx).elim) hb).2 rfl,
      List.nil_append, hnotices, hranked, if_pos rfl, Option.map_some]
  · have hown : y.origin .service = u.origin .service := (horigin .service (by simp)).trans (h.other _ ho)
    have honly : OnlyNotices .service y.posts := by
      rw [hposts]
      intro x hx hd
      rcases List.mem_cons.mp hx with rfl | hx
      · exact absurd hd.symm ho
      · exact hb x hx hd
    have hlist : noticesTo .service y.posts = (u.withdrawal p).2 ++
        [(.portEvent, portEventFields p (u.ports[p]).state (u.resetTo p vacate) cause (u.ports[p]).frame)] := by
      rw [hposts, ← hnotices]; rfl
    rw [(finish_notices (s0 := s0) hsettled hyres (q := u.service.origin) hown honly).2 rfl, hlist, hranked, if_neg ho]
    rfl

end

end Sys2Proof.Machine
end

section
namespace Sys2Proof.Machine

/-! ### RESET LINK (R36, R37) -/

section
variable {o : Origin} {ident : Byte} {c : OrderCode} {r : ResultCode} {b : List Byte} {u : State} {p : PortIx}

theorem replied_withdrawal : (replied o ident c r b u).withdrawal p = u.withdrawal p :=
  withdrawal_congr (by rw [replied_ports]) replied_tb replied_settings replied_clock

/-- The end of a port's service by an order, from what is left of the timebase and told to S. -/
theorem leavesService_of {cause : PortCause} {q : OriginState} {t : State} {st : PortState} (hq : u.origin o = some q)
    (hrep : q.hasReply = false) (hres : u.restarting = false) (hst : (t.ports[p]).state = st) (htb : t.tb = (u.withdrawal p).1)
    (htold : (∀ a, ¬ u.closes a .service) → t.origin .service = (if Origin.service = o
      then some (OriginState.placeReply { q with slot := some ⟨ident, c.byte, some (r, b)⟩ }) else u.origin .service).map (.told
        ((.portEvent, portEventFields p (u.ports[p]).state st cause (u.ports[p]).frame) :: (u.withdrawal p).2))) :
    LeavesService p cause (replied o ident c r b u) t := by
  refine ⟨by rw [replied_withdrawal]; exact htb, fun hn => ?_⟩
  rw [replied_streams] at hn
  rw [State.told, replied_restarting, hres, if_neg (by simp), replied_origin hq hrep, replied_withdrawal, hst]
  simp only [replied_ports]
  exact htold fun a ⟨r', hr', hc⟩ => hn a r' hr' hc

theorem orderTaken_presence {f : Fraction} {s : State} (q : PortIx) :
    ((orderTaken o f s).ports[q]).presence = (s.ports[q]).presence := by
  cases o with
  | port p =>
    simp only [orderTaken, parcelTaken, modPort_port]
    split
    · subst_vars; rfl
    · rfl
  | service => rfl

theorem mayReset_iff {s : State} : s.mayReset o p = true ↔ o = .service ∨ o = .port p ∨ (s.ports[p]).state.isRegistered = false := by
  unfold State.mayReset
  rw [Bool.or_eq_true, Bool.or_eq_true, or_assoc, beq_iff_eq, beq_iff_eq]
  cases (s.ports[p]).state <;> simp [PortState.isRegistered]

theorem running_state (q : PortIx) : ((running o ident c u).ports[q]).state = (u.ports[q]).state := by
  cases o <;> rfl

end

section
variable {o : Origin} {p : PortIx} {ident : Byte} {args : List Byte} {f : Fraction} {s : State}

/-- RESET LINK is decided by its argument, the rights of its origin and the state of the port. -/
theorem resetLink_runs (hs : s.ready o = true) (hl : args.length = 1) : exec (.resetLink o ident args f) s =
    .next (finish s (ownResetLink o args (running o ident .resetLink (orderTaken o f s)))) :=
  ready_runs (c := .resetLink) hs (rightsAllow_of (by decide)) (by omega)

theorem resetLink_answered {r : ResultCode} (hs : s.ready o = true) (hl : args.length = 1)
    (h : ownResetLink o args (running o ident .resetLink (orderTaken o f s)) =
      answer o r [] (running o ident .resetLink (orderTaken o f s))) :
    exec (.resetLink o ident args f) s = .next (replied o ident .resetLink r [] (orderTaken o f s)) :=
  ready_answered (c := .resetLink) (ready_iff.mp hs).1 (stateAllows_of_ready hs) (rightsAllow_of (by decide)) (by omega) h

theorem resetLink : Claims.ResetLink := by
  refine ⟨fun o ident args f s hs hl hp => resetLink_answered hs hl ?_, fun o p ident args f s hs hl hp => ?_⟩
  · have hport : port? (field args 0 1) = none := index?_none hp
    simp only [ownResetLink, hl, hport, ne_eq, not_true_eq_false, if_false]
    rfl
  have hport : port? (field args 0 1) = some p := index?_of_val hp
  obtain ⟨-, hres, q, hq, -, hrep⟩ := slotFree_iff.mp (ready_iff.mp hs).1
  have hstate : ∀ a : PortIx, ((running o ident .resetLink (orderTaken o f s)).ports[a]).state = (s.ports[a]).state := fun a =>
    (running_state a).trans (orderTaken_state a)
  have hmay : (running o ident .resetLink (orderTaken o f s)).mayReset o p = true ↔
      o = .service ∨ o = .port p ∨ (s.ports[p]).state.isRegistered = false := by rw [mayReset_iff, hstate]
  have hown : ownResetLink o args (running o ident .resetLink (orderTaken o f s)) =
      if (running o ident .resetLink (orderTaken o f s)).mayReset o p = true then
        if (s.ports[p]).state = .vacant then answer o .done [] (running o ident .resetLink (orderTaken o f s))
        else resetPort p false .reset (answer o .done [] (running o ident .resetLink (orderTaken o f s)))
      else answer o .notPermitted [] (running o ident .resetLink (orderTaken o f s)) := by
    simp only [ownResetLink, hl, hport, ne_eq, not_true_eq_false, if_false, hstate]
    rfl
  intro u out may
  refine ⟨fun hv => resetLink_answered hs hl ?_, fun hn => resetLink_answered hs hl ?_, fun hm hv => ⟨_, resetLink_runs hs hl, ?_⟩⟩
  · rw [hown, if_pos, if_pos hv]
    exact hmay.mpr (.inr (.inr (by rw [hv]; rfl)))
  · rw [hown, if_neg fun e => hn (hmay.mp e)]
  have hq' : u.origin o = some q := by rw [orderTaken_origin]; exact hq
  have hreplying : Replying o _ u _ := replying_answer (ident := ident) (c := .resetLink) (r := .done) (b := []) hq' orderTaken_posts
  have hfin : finish s (ownResetLink o args (running o ident .resetLink (orderTaken o f s))) =
      finish s (resetPort p false .reset (answer o .done [] (running o ident .resetLink u))) := by
    rw [hown, if_pos (hmay.mpr hm), if_neg hv]
  generalize finish s (ownResetLink o args (running o ident .resetLink (orderTaken o f s))) = t at hfin
  have hures : u.restarting = false := orderTaken_restarting.trans hres
  obtain ⟨hst, hfail, hfill, hnothing, hsame, htb⟩ := reset_leaves hreplying hfin
  have hto : u.resetTo p false = if (s.ports[p]).presence && s.settings.enable[p] then .listening else .vacant := by
    simp only [State.resetTo, u, orderTaken_presence, orderTaken_settings, Bool.not_false, Bool.true_and]
  refine ⟨hst.trans hto, hfail, hfill, hnothing, hsame, ?_, fun hact => ?_, fun ho => ?_⟩
  · exact leavesService_of hq' hrep hures hst htb (reset_told hreplying hfin hures)
  · exact reset_nowhere hreplying hfin ((orderTaken_state p).trans hact) orderTaken_streams (by rw [orderTaken_tb]) (by rw [orderTaken_settings])
  · obtain ⟨q', hq1, hg⟩ := reset_replies hreplying hfin hures ho
    rw [placeReply_free hrep] at hg
    exact ⟨q', hq1, hg.1, hg.2.subset (List.mem_append_right _ (List.mem_singleton_self _))⟩

end

end Sys2Proof.Machine
end

section
namespace Sys2Proof.Machine

/-! ### A planned departure before its event ends (R31, R32, R95, R156) -/

/-- What a port's order in progress is answered at a planned departure: ABORTED where it is RUNNING, otherwise nothing. -/
def Aborted (p : PortIx) (w y : State) (posts : List Post) : Prop :=
  ((∀ i c, (w.origin (.port p)).bind (·.slot) ≠ some ⟨i, c, none⟩) ∧ y.origin (.port p) = w.origin (.port p) ∧ posts = []) ∨
  ∃ q i c, w.origin (.port p) = some q ∧ q.slot = some ⟨i, c, none⟩ ∧
    y.origin (.port p) = some { q with slot := some ⟨i, c, some (.aborted, [])⟩ } ∧ posts = [⟨.port p, .reply⟩]

theorem answer_aborts (p : PortIx) (w : State) : ∃ origins service posts, answer (.port p) .aborted [] w = { w with
      origins := origins, service := service, posts := w.posts ++ posts } ∧
    (∀ o', o' ≠ .port p → (answer (.port p) .aborted [] w).origin o' = w.origin o' ∧ ∀ x ∈ posts, x.dest ≠ o') ∧
    Aborted p w (answer (.port p) .aborted [] w) posts := by
  by_cases hrun : ∃ i c, (w.origin (.port p)).bind (·.slot) = some ⟨i, c, none⟩
  · obtain ⟨i, c, hslot⟩ := hrun
    obtain ⟨q, hq, hqs⟩ := Option.bind_eq_some_iff.mp hslot
    obtain ⟨origins, service, posts, he, hother⟩ := answerAs_spec .reply (.port p) .aborted [] w
    have hans := answerAs_running (item := .reply) (r := .aborted) (b := []) hslot
    have hposts : posts = [⟨.port p, .reply⟩] := by
      have h := congrArg State.posts (he.symm.trans hans)
      exact List.append_cancel_left (h.trans (by rfl : _ = w.posts ++ [⟨.port p, .reply⟩]))
    refine ⟨origins, service, posts, he, hother, .inr ⟨q, i, c, hq, hqs, ?_, hposts⟩⟩
    show (answerAs .reply (.port p) .aborted [] w).origin (.port p) = _
    rw [hans]
    have hmod := modOrigin_origin (.port p) (.port p) (fun q => { q with slot := some ⟨i, c, some (.aborted, [])⟩ }) w
    rw [if_pos rfl, hq] at hmod
    exact hmod
  · have hidle : ∀ i c, (w.origin (.port p)).bind (·.slot) ≠ some ⟨i, c, none⟩ := fun i c h => hrun ⟨i, c, h⟩
    have hans : answer (.port p) .aborted [] w = w := answerAs_idle hidle
    refine ⟨w.origins, w.service, [], by rw [hans, List.append_nil], fun o' _ => ⟨by rw [hans], fun x hx => by cases hx⟩, .inl ⟨hidle, by rw [hans], rfl⟩⟩

/-- The record of a port that leaves. -/
def Port.departs (x : Port) : Port := { x with state := .leaving, held := false, holdBeats := 0, missRun := 0 }

/-- The notice of a planned departure. -/
def State.departure (s : State) (p : PortIx) : NoticeKind × List Byte :=
  (.portEvent, portEventFields p (s.ports[p]).state .leaving .detach (s.ports[p]).frame)

/-- What a planned departure of a port leaves before its event ends. -/
structure Departed (p : PortIx) (w y : State) : Prop where
  ports : y.ports = w.ports.set p (w.ports[p]).departs
  delays : y.delays = w.delays.set p { w.delays[p] with due := none, outstanding := none }
  triggers : y.triggers = w.triggers.set p .initial
  tb : y.tb = (w.withdrawn p).1
  restarting : y.restarting = w.restarting
  taps : ∀ (t : TapIx) x, y.taps[t] = some x → x.consumer ≠ p
  lines : ∀ l : LineIx, (y.lines[l]).subscribers[p] = false
  left : ∀ st, LeftBy p w y st
  closes : ∀ o', (∀ st, ¬ w.closes st o') → ∀ st, ¬ y.closes st o'
  drainSet : ∀ st, st ∈ y.drainSets[p] ↔ ∃ r, y.streams[st] = some r ∧ r.state = .draining ∧ w.frameId p = some r.frameId
  origin : ∀ o', o' ≠ .port p → y.origin o' = w.origin o'
  posts : ∃ posts, y.posts = w.posts ++ (postsTo .service [w.departure p] ++ postsTo .service (w.withdrawn p).2 ++ posts) ∧
    (∀ x ∈ posts, x.dest = .port p) ∧ Aborted p w y posts

theorem mem_drainSetOf {s : State} {p : PortIx} {st : StreamIx} : st ∈ s.drainSetOf p ↔
    ∃ r, s.streams[st] = some r ∧ r.state = .draining ∧ s.frameId p = some r.frameId := by
  rw [State.drainSetOf, List.mem_filter]
  cases hr : s.streams[st] with
  | none => simp [-Fin.getElem_fin]
  | some r => simp [mem_allStreams, -Fin.getElem_fin]

theorem departPort_departed (p : PortIx) (w : State) : Departed p w (departPort p w) := by
  obtain ⟨streams, taps, store, lines, he, htaps, hlines, hstreams⟩ := teardown_drains p (moveTo p .leaving .detach w)
  have hmove : moveTo p .leaving .detach w = { w with
      ports := w.ports.set p (w.ports[p]).departs, posts := w.posts ++ postsTo .service [w.departure p] } := rfl
  have hwith : (moveTo p .leaving .detach w).withdrawn p = w.withdrawn p := withdrawn_congr rfl rfl rfl p
  rw [hwith] at he
  generalize hv : teardown false p (moveTo p .leaving .detach w) = v at he
  obtain ⟨origins, service, posts, hans, hother, habort⟩ := answer_aborts p v
  have hdepart : departPort p w = setDrainSet p ((modDelay p (fun d => { d with due := none, outstanding := none })
      (dropCloses (.port p) (answer (.port p) .aborted [] v))).drainSetOf p)
      (modDelay p (fun d => { d with due := none, outstanding := none }) (dropCloses (.port p) (answer (.port p) .aborted [] v))) := by
    subst hv; rfl
  rw [hans, dropCloses_eq] at hdepart
  have hset := fun st : StreamIx => mem_drainSetOf (s := modDelay p (fun d => { d with due := none, outstanding := none })
    { v with origins := origins, service := service, posts := v.posts ++ posts, streams := v.streams.map (Option.map (Stream.forgets (.port p))) })
    (p := p) (st := st)
  have horigin : ∀ o', (departPort p w).origin o' = (answer (.port p) .aborted [] v).origin o' := fun o' => by
    rw [hdepart, hans]; cases o' <;> rfl
  have hvo : ∀ o', v.origin o' = w.origin o' := fun o' => by rw [he]; cases o' <;> rfl
  have hstream : ∀ st : StreamIx, (departPort p w).streams[st] = (streams[st]).map (Stream.forgets (.port p)) := fun st => by
    rw [hdepart, he]; exact vget_map ..
  subst he
  refine ⟨?_, ?_, ?_, ?_, ?_, ?_, ?_, fun st => ?_, fun o' hn st => ?_, fun st => ?_, fun o' ho => ?_, posts, ?_, ?_, ?_⟩
  · rw [hdepart]; rfl
  · rw [hdepart]; rfl
  · rw [hdepart]; rfl
  · rw [hdepart]; rfl
  · rw [hdepart]; rfl
  · rw [hdepart]; exact htaps
  · rw [hdepart]; exact hlines
  · obtain ⟨fifo, left, hs⟩ := hstreams st
    rw [LeftBy, State.keptOf, hstream, hs, Option.map_map, Option.map_map]
    exact Option.map_congr fun r _ => forgets_kept (.port p) _
  · rintro ⟨r', hr', hc⟩
    rw [hstream] at hr'
    obtain ⟨r1, hr1, rfl⟩ := Option.map_eq_some_iff.mp hr'
    obtain ⟨fifo, left, hs⟩ := hstreams st
    rw [hs] at hr1
    obtain ⟨r2, hr2, rfl⟩ := Option.map_eq_some_iff.mp hr1
    obtain ⟨r, hr, hcl⟩ := drainedBy_closeBy hr2
    exact hn st ⟨r, hr, hcl.symm.trans (forgets_closeBy (r := { r2 with fifo := fifo, taps := left }) hc)⟩
  · rw [hdepart]
    show st ∈ (Vector.set _ p _)[p] ↔ _
    rw [vget_set, if_pos rfl, hset]
    have hframe : (moveTo p .leaving .detach w).frameId p = w.frameId p := by
      rw [hmove, State.frameId, State.frameId]
      show (((w.ports.set p _)[p]) : Port).frame.map _ = _
      rw [vget_set, if_pos rfl]; rfl
    refine exists_congr fun r => and_congr_right fun _ => and_congr_right fun _ => ?_
    rw [← hframe]; rfl
  · rw [horigin, (hother o' ho).1, hvo]
  · rw [hdepart, ← List.append_assoc, ← List.append_assoc]; rfl
  · intro x hx
    by_contra hne
    exact (hother x.dest hne).2 x hx rfl
  · unfold Aborted at habort ⊢
    rw [horigin, ← hvo]
    exact habort

/-! ### A planned departure at the end of its event -/

section
variable {p : PortIx} {o : Origin} {q : OriginState} {s0 u w y t : State} (h : Replying o q u w) (hy : Departed p w y)
  (ht : t = finish s0 y)
include h hy ht

/-- What a planned departure leaves of its port. -/
theorem departed_port : t.ports[p] = (u.ports[p]).departs ∧ t.delays[p] = { u.delays[p] with due := none, outstanding := none } ∧
    t.triggers[p] = .initial ∧ t.tb = (u.withdrawn p).1 := by
  obtain ⟨origins, service, hw⟩ := h.shape
  have htab := tables_finish s0 y
  rw [← ht] at htab
  have hwith : w.withdrawn p = u.withdrawn p := by subst hw; exact withdrawn_congr rfl rfl rfl p
  refine ⟨?_, ?_, ?_, by rw [htab.tb, hy.tb, hwith]⟩
  · rw [htab.ports, hy.ports, vget_set, if_pos rfl, hw]
  · rw [htab.delays, hy.delays, vget_set, if_pos rfl, hw]
  · rw [htab.triggers, hy.triggers, vget_set, if_pos rfl]

/-- The port stands in no table, its drain set is the draining streams of its frame, and its streams drain. -/
theorem departed_nowhere : t.StandsNowhere p ∧
    (∀ st, st ∈ t.drainSets[p] ↔ ∃ r, t.streams[st] = some r ∧ r.state = .draining ∧ u.frameId p = some r.frameId) ∧
    ∀ s : State, u.streams = s.streams → u.tb.beat = s.tb.beat → u.settings.drainLimit = s.settings.drainLimit →
      ∀ st r, s.streams[(st : StreamIx)] = some r → s.produces p st = true → Drains s t st r := by
  obtain ⟨origins, service, hw⟩ := h.shape
  have htab := tables_finish s0 y
  have hstands := finish_stands s0 y
  have hkeep := (untapped_keeps p).finish (s0 := s0) (s := y) hy.taps
  rw [← ht] at htab hstands hkeep
  have hcand : t.tb.candidates[p] = none := by
    rw [htab.tb, hy.tb, withdrawn_candidates, vget_set, if_pos rfl]
  refine ⟨⟨hkeep, fun st => left_produces (hy.left st) (hstands st), hcand, by rw [htab.lines]; exact hy.lines⟩, fun st => ?_,
    fun s hst hbeat hlimit st r hr hp => left_drains (hy.left st) (hstands st) (by rw [hw, ← hr, ← hst]) ?_
      (by rw [hw]; exact hbeat) (by rw [hw]; exact hlimit)⟩
  · have hset := hy.drainSet st
    rw [show w.frameId p = u.frameId p by rw [hw]; rfl] at hset
    rcases hstands st with ⟨hnone, hout⟩ | ⟨hk, hin⟩
    · rw [hnone]
      exact ⟨fun e => absurd e (hout p), fun ⟨r, hr, _⟩ => by cases hr⟩
    · have hfield : ∀ v : State, (∃ r, v.streams[st] = some r ∧ r.state = .draining ∧ u.frameId p = some r.frameId) ↔
          ∃ r, v.keptOf st = some r ∧ r.state = .draining ∧ u.frameId p = some r.frameId := fun v => by
        rw [State.keptOf]
        cases v.streams[st] with
        | none => simp
        | some r => simp only [Option.map_some, Option.some.injEq, exists_eq_left']; rfl
      rw [hin p, hset, hfield, hfield, hk]
  · rw [hw]
    simp only [State.produces, hst]
    exact hp

variable (hres : u.restarting = false)
include hres

omit ht in
theorem departed_restarting : y.restarting = false := by
  obtain ⟨origins, service, hw⟩ := h.shape
  rw [hy.restarting, hw]; exact hres

/-- The reply of the order stands in its origin's slot and queue. -/
theorem departed_replies : ∃ q', t.origin o = some q' ∧ q.placeReply.grownTo q' := by
  obtain ⟨origins, service, hw⟩ := h.shape
  obtain ⟨posts, hposts, hdest, habort⟩ := hy.posts
  have hpost : w.posts = [⟨o, .reply⟩] := by rw [hw]
  have hfacts : y.origin o = some q ∧ OnlyNotices o posts := by
    by_cases ho : o = .port p
    · subst ho
      rcases habort with ⟨-, hown, rfl⟩ | ⟨q', i, c, hq', hrun, -⟩
      · exact ⟨hown.trans h.own, fun _ hx => (List.not_mem_nil hx).elim⟩
      · rw [h.own, Option.some.injEq] at hq'
        exact absurd (hq' ▸ hrun) (h.answered i c)
    · exact ⟨(hy.origin o ho).trans h.own, fun x hx hd => absurd (hd.symm.trans (hdest x hx)) ho⟩
  rw [ht]
  exact (finish_replies (s0 := s0) (.inl (by rw [hfacts.1]; exact h.answered)) (departed_restarting h hy hres) hfacts.1
    (a := []) (by rw [hposts, hpost]; rfl) (fun _ hx => (List.not_mem_nil hx).elim)
    (onlyNotices_append (onlyNotices_append (onlyNotices_postsTo o .service _) (onlyNotices_postsTo o .service _)) hfacts.2)).1

/-- The queue of the port goes on, and an order of its own that was RUNNING is ABORTED, where S gave the order. -/
theorem departed_aborts (ho : o = .service) {q0 : OriginState} (hq0 : u.origin (.port p) = some q0) :
    ∃ q', t.origin (.port p) = some q' ∧ q0.queue <+: q'.queue ∧
      ∀ i c, q0.slot = some ⟨i, c, none⟩ → q'.slot = some ⟨i, c, some (.aborted, [])⟩ := by
  subst ho
  obtain ⟨origins, service, hw⟩ := h.shape
  obtain ⟨posts, hposts, -, habort⟩ := hy.posts
  have hpost : w.posts = [⟨.service, .reply⟩] := by rw [hw]
  have hwq : w.origin (.port p) = some q0 := (h.other _ (by simp)).trans hq0
  have hreply : OnlyNotices (.port p) [(⟨.service, .reply⟩ : Post)] := fun x hx hd => by
    rw [List.mem_singleton.mp hx] at hd; cases hd
  have honly : OnlyNotices (.port p) ([⟨.service, .reply⟩] ++ (postsTo .service [w.departure p] ++ postsTo .service (w.withdrawn p).2)) :=
    onlyNotices_append hreply (onlyNotices_append (onlyNotices_postsTo _ _ _) (onlyNotices_postsTo _ _ _))
  rw [hpost, ← List.append_assoc] at hposts
  rw [ht]
  rcases habort with ⟨hidle, hown, rfl⟩ | ⟨q1, i, c, hq1, hrun, hown, rfl⟩
  · have hset : ∀ i c, (y.origin (.port p)).bind (·.slot) ≠ some ⟨i, c, none⟩ := by rw [hown]; exact hidle
    obtain ⟨q', hq', -, hgrown⟩ := (finish_notices (s0 := s0) (.inl hset) (departed_restarting h hy hres) (hown.trans hwq)
      (by rw [hposts, List.append_nil]; exact honly)).1
    exact ⟨q', hq', hgrown, fun i c hs => absurd (by rw [hwq]; exact hs) (hidle i c)⟩
  · have hq : q1 = q0 := Option.some.inj (hq1.symm.trans hwq)
    subst hq
    obtain ⟨q', hq', hg⟩ := (finish_replies (s0 := s0) (.inl (by rw [hown]; simp)) (departed_restarting h hy hres) hown (b := [])
      hposts honly (fun _ hx => (List.not_mem_nil hx).elim)).1
    have hgrown := (placeReply_grown { q1 with slot := some ⟨i, c, some (.aborted, [])⟩ }).trans hg
    refine ⟨q', hq', hgrown.2, fun i' c' hs => ?_⟩
    rw [hrun, Option.some.injEq, Slot.mk.injEq] at hs
    rw [hgrown.1, hs.1, hs.2.1]

/-- What a planned departure tells S, where no drain answers S: behind its reply, if it has one. -/
theorem departed_told (hn : ∀ st, ¬ u.closes st .service) : t.origin .service =
    (if Origin.service = o then some q.placeReply else u.origin .service).map (.told (u.departure p :: (u.withdrawn p).2)) := by
  obtain ⟨origins, service, hw⟩ := h.shape
  obtain ⟨posts, hposts, hdest, -⟩ := hy.posts
  have hwith : w.withdrawn p = u.withdrawn p := by subst hw; exact withdrawn_congr rfl rfl rfl p
  have hpost : w.posts = [⟨o, .reply⟩] := by rw [hw]
  have hdeparture : w.departure p = u.departure p := by rw [hw]; rfl
  have hkind : ∀ x ∈ (u.withdrawn p).2, x.1 = .timebaseEvent := by
    unfold State.withdrawn
    split
    · exact selection_kind _ 6
    · simp
  have hranked : ranked (u.departure p :: (u.withdrawn p).2) = u.departure p :: (u.withdrawn p).2 := by
    refine ranked_eq (fun _ => rfl) (List.pairwise_cons.mpr ⟨fun x hx => ?_, ?_⟩)
    · rw [hkind x hx]; exact show NoticeKind.portEvent.rank ≤ NoticeKind.timebaseEvent.rank by decide
    · exact List.pairwise_of_forall_mem_list fun x hx y hy => by rw [hkind x hx, hkind y hy]
  obtain ⟨hsilent, hnone⟩ := notTo_service (l := posts) fun x hx => by rw [hdest x hx]; simp
  rw [hwith, hdeparture, hpost] at hposts
  have hb : OnlyNotices .service (postsTo .service [u.departure p] ++ postsTo .service (u.withdrawn p).2 ++ posts) ∧
      noticesTo .service (postsTo .service [u.departure p] ++ postsTo .service (u.withdrawn p).2 ++ posts) =
        u.departure p :: (u.withdrawn p).2 := by
    refine ⟨onlyNotices_append (onlyNotices_append (onlyNotices_postsTo _ _ _) (onlyNotices_postsTo _ _ _)) hsilent, ?_⟩
    rw [noticesTo_append, noticesTo_append, noticesTo_postsTo, noticesTo_postsTo, if_pos rfl, if_pos rfl, hnone, List.append_nil]
    rfl
  have hclose : ∀ st, ¬ y.closes st .service := hy.closes .service fun st hst => hn st (by rw [hw] at hst; exact hst)
  have hyres := departed_restarting h hy hres
  rw [ht]
  by_cases ho : Origin.service = o
  · subst ho
    have hown : y.origin .service = some q := (hy.origin .service (by simp)).trans h.own
    rw [(finish_replies (s0 := s0) (.inr hclose) hyres hown (a := []) (by rw [hposts]; rfl)
      (fun _ hx => (List.not_mem_nil hx).elim) hb.1).2 rfl, List.nil_append, hb.2, hranked, if_pos rfl, Option.map_some]
  · have hown : y.origin .service = u.origin .service := (hy.origin .service (by simp)).trans (h.other _ ho)
    have honly : OnlyNotices .service y.posts := by
      rw [hposts]
      refine onlyNotices_append (fun x hx hd => ?_) hb.1
      rw [List.mem_singleton.mp hx] at hd
      exact absurd hd.symm ho
    have hlist : noticesTo .service y.posts = u.departure p :: (u.withdrawn p).2 := by
      rw [hposts, ← hb.2]; rfl
    rw [(finish_notices (s0 := s0) (.inr hclose) hyres (q := u.service.origin) hown honly).2 rfl, hlist, hranked, if_neg ho]
    rfl

end

end Sys2Proof.Machine
end

section
namespace Sys2Proof.Machine

/-! ### DETACH (R31, R32, R59) -/

section
variable {o : Origin} {p : PortIx} {ident : Byte} {args : List Byte} {f : Fraction} {s : State}

theorem detach_runs (hs : s.ready o = true) (hl : args.length ≤ 32) : exec (.detach o ident args f) s =
    .next (finish s (ownDetach o args (running o ident .detach (orderTaken o f s)))) :=
  ready_runs (c := .detach) hs (rightsAllow_of (by decide)) hl

theorem detach_answered {r : ResultCode} (hs : s.ready o = true) (hl : args.length ≤ 32)
    (h : ownDetach o args (running o ident .detach (orderTaken o f s)) =
      answer o r [] (running o ident .detach (orderTaken o f s))) :
    exec (.detach o ident args f) s = .next (replied o ident .detach r [] (orderTaken o f s)) :=
  ready_answered (c := .detach) (ready_iff.mp hs).1 (stateAllows_of_ready hs) (rightsAllow_of (by decide)) hl h

/-- The owning rule of DETACH on the port that it names. -/
theorem ownDetach_named (ho : o = .port p ∧ args = [] ∨ o = .service ∧ args.length = 1 ∧ field args 0 1 = p.val)
    (ha : o = .port p → (s.ports[p]).state = .active) : ownDetach o args (running o ident .detach (orderTaken o f s)) =
      if (s.ports[p]).state = .active then departPort p (answer o .done [] (running o ident .detach (orderTaken o f s)))
      else answer o .notActive [] (running o ident .detach (orderTaken o f s)) := by
  have hstate : ((running o ident .detach (orderTaken o f s)).ports[p]).state = (s.ports[p]).state :=
    (running_state p).trans (orderTaken_state p)
  rcases ho with ⟨rfl, rfl⟩ | ⟨rfl, hl, hp⟩
  · rw [if_pos (ha rfl)]
    rfl
  · have hport : port? (field args 0 1) = some p := index?_of_val hp
    simp only [ownDetach, hl, hport, ne_eq, not_true_eq_false, if_false, hstate]
    rfl

theorem detach : Claims.Detach := by
  refine ⟨fun ident args f s hs hl hp => detach_answered hs (by omega) ?_, fun o p ident args f s hs ho => ?_⟩
  · have hport : port? (field args 0 1) = none := index?_none hp
    simp only [ownDetach, hl, hport, ne_eq, not_true_eq_false, if_false]
    rfl
  obtain ⟨hfree, hport⟩ := ready_iff.mp hs
  obtain ⟨-, hres, q, hq, -, hrep⟩ := slotFree_iff.mp hfree
  have hl : args.length ≤ 32 := by
    rcases ho with ⟨-, rfl⟩ | ⟨-, hl, -⟩
    · exact Nat.zero_le _
    · omega
  have hown := ownDetach_named (ident := ident) (f := f) ho (hport p)
  refine ⟨fun hact => ⟨_, detach_runs hs hl, ?_⟩, fun hidle => detach_answered hs hl (by rw [hown, if_neg hidle])⟩
  have hq' : (orderTaken o f s).origin o = some q := by rw [orderTaken_origin]; exact hq
  have hreplying := replying_answer (ident := ident) (c := .detach) (r := .done) (b := []) hq' orderTaken_posts
  rw [if_pos hact] at hown
  have hy := departPort_departed p (answer o .done [] (running o ident .detach (orderTaken o f s)))
  have ht : finish s (ownDetach o args (running o ident .detach (orderTaken o f s))) =
      finish s (departPort p (answer o .done [] (running o ident .detach (orderTaken o f s)))) := by rw [hown]
  generalize finish s (ownDetach o args (running o ident .detach (orderTaken o f s))) = t at ht
  have hures : (orderTaken o f s).restarting = false := orderTaken_restarting.trans hres
  have hact' : ((orderTaken o f s).ports[p]).state = .active := (orderTaken_state p).trans hact
  obtain ⟨hp, hd, htr, htb⟩ := departed_port hreplying hy ht
  obtain ⟨hnowhere, hset, hdrains⟩ := departed_nowhere hreplying hy ht
  have hframe : (orderTaken o f s).frameId p = s.frameId p := by rw [State.frameId, State.frameId, orderTaken_frame]
  have hreply : ∃ q', t.origin o = some q' ∧ q'.slot = some ⟨ident, OrderCode.detach.byte, some (.done, [])⟩ ∧
      q.queue ++ [.reply true ident OrderCode.detach.byte .done []] <+: q'.queue := by
    obtain ⟨q', hq1, hg⟩ := departed_replies hreplying hy ht hures
    rw [placeReply_free hrep] at hg
    exact ⟨q', hq1, hg.1, hg.2⟩
  have hqueue : ∀ q0, s.origins[p] = some q0 → ∃ q', t.origins[p] = some q' ∧ q0.queue <+: q'.queue ∧
      (o = .service → ∀ i c, q0.slot = some ⟨i, c, none⟩ → q'.slot = some ⟨i, c, some (.aborted, [])⟩) := fun q0 hq0 => by
    rcases ho with ⟨rfl, -⟩ | ⟨rfl, -⟩
    · obtain ⟨q', hq1, -, hg⟩ := hreply
      have hsame : q0 = q := Option.some.inj (hq0.symm.trans hq)
      subst hsame
      exact ⟨q', hq1, (List.prefix_append ..).trans hg, fun e => by cases e⟩
    · obtain ⟨q', hq1, hg, hab⟩ := departed_aborts hreplying hy ht hures rfl (p := p) (q0 := q0) hq0
      exact ⟨q', hq1, hg, fun _ => hab⟩
  have hrec : ∀ {β : Type} (g : Port → β), g t.ports[p] = g ((orderTaken o f s).ports[p]).departs := fun g => congrArg g hp
  have hdelay : ∀ {β : Type} (g : Delay → β), g t.delays[p] = g { s.delays[p] with due := none, outstanding := none } := fun g => by
    rw [hd, orderTaken_delays]
  refine ⟨hrec Port.state, ?_, hrec Port.held, hrec Port.missRun, hdelay Delay.estimate, hdelay Delay.due, hdelay Delay.outstanding,
    htr, hnowhere, fun st => by rw [← hframe]; exact hset st,
    hdrains s orderTaken_streams (by rw [orderTaken_tb]) (by rw [orderTaken_settings]), ?_, fun q0 hq0 => ?_,
    fun ho q0 i c hq0 hs0 => ?_, ?_⟩
  · rw [← hframe]
    exact congrArg (Option.map _) (hrec Port.frame)
  · obtain ⟨q', hq1, hs1, hg⟩ := hreply
    exact ⟨q', hq1, hs1, hg.subset (List.mem_append_right _ (List.mem_singleton_self _))⟩
  · obtain ⟨q', hq1, hg, -⟩ := hqueue q0 hq0
    exact ⟨q', hq1, hg⟩
  · obtain ⟨q', hq1, -, hab⟩ := hqueue q0 hq0
    exact ⟨q', hq1, hab ho i c hs0⟩
  · refine leavesService_of hq' hrep hures (hrec Port.state) (htb.trans (by rw [withdrawal_active hact'])) fun hn => ?_
    rw [departed_told hreplying hy ht hures hn, withdrawal_active hact']
    rfl

end

/-- Settles O49: the teardown that both orders share, then the end of the event, origin by origin and stream by stream. -/
theorem detachAndReset : Obligations.DetachAndReset :=
  ⟨detach, resetLink⟩

end Sys2Proof.Machine
end

section
namespace Sys2Proof.Machine

/-! ### The roles of an event, told to every port (R70) -/

theorem roleTo_dest {c : Option Source} {n freeReads : Nat} {s : State} {posts : List Post}
    (h : roleTo c n s = { s with posts := s.posts ++ posts, freeReads := freeReads }) : ∀ y ∈ posts, y.dest ≠ .service := by
  have hposts : (roleTo c n s).posts = s.posts ++ posts := by rw [h]
  rcases c with _ | _ | p
  · rw [List.append_cancel_left (hposts.symm.trans (List.append_nil s.posts).symm)]; exact fun _ hy => (List.not_mem_nil hy).elim
  · rw [List.append_cancel_left (hposts.symm.trans (List.append_nil s.posts).symm)]; exact fun _ hy => (List.not_mem_nil hy).elim
  · obtain ⟨cls, _, he, -⟩ := postRole_spec p n s
    have hrole : (roleTo (some (.port p)) n s).posts = _ := congrArg State.posts he
    rw [List.append_cancel_left (hposts.symm.trans hrole)]
    intro y hy
    rw [List.mem_singleton.mp hy]
    simp

/-- What each port is told of a change of the reference: GAINED, or LOST, or nothing; S is told nothing. -/
theorem postRoles_told (s0 s : State) : ∃ posts freeReads, postRoles s0 s = { s with
      posts := s.posts ++ posts, freeReads := freeReads } ∧ (∀ o, OnlyNotices o posts) ∧ noticesTo .service posts = [] ∧
    ∀ c : PortIx, ∃ cls, (∀ y, s.tb.candidates[c] = some y → cls = y.cls) ∧ noticesTo (.port c) posts =
      if s0.tb.selected = s.tb.selected then []
      else if s.tb.selected = some (.port c) then [(.referenceRole, be 1 1 ++ be 1 s.tb.state.code ++ be 1 cls)]
      else if s0.tb.selected = some (.port c) then [(.referenceRole, be 1 2 ++ be 1 s.tb.state.code ++ be 1 cls)] else [] := by
  rw [postRoles_eq]
  by_cases hsel : s0.tb.selected = s.tb.selected
  · rw [if_pos hsel]
    refine ⟨[], s.freeReads, by rw [List.append_nil], fun _ _ hx => (List.not_mem_nil hx).elim, rfl, fun c =>
      ⟨((s.tb.candidates[c]).map (·.cls)).getD 0, fun y hy => by rw [hy]; rfl, by rw [if_pos hsel]; rfl⟩⟩
  · rw [if_neg hsel]
    obtain ⟨gained, f1, he1, ho1, hc1⟩ := roleTo_spec s.tb.selected 1 s
    obtain ⟨lost, f2, he2, ho2, hc2⟩ := roleTo_spec s0.tb.selected 2 (roleTo s.tb.selected 1 s)
    have htb : (roleTo s.tb.selected 1 s).tb = s.tb := by rw [he1]
    rw [htb] at hc2
    refine ⟨gained ++ lost, f2, by rw [he2, he1, List.append_assoc], fun o => onlyNotices_append (ho1 o) (ho2 o), ?_, fun c => ?_⟩
    · rw [noticesTo_append, (notTo_service (roleTo_dest he1)).2, (notTo_service (roleTo_dest he2)).2]; rfl
    · obtain ⟨cls1, hcls1, hn1⟩ := hc1 c
      obtain ⟨cls2, hcls2, hn2⟩ := hc2 c
      rw [noticesTo_append, hn1, hn2]
      by_cases hnew : s.tb.selected = some (.port c)
      · refine ⟨cls1, hcls1, ?_⟩
        rw [if_pos hnew, if_neg hsel, if_pos hnew, if_neg fun e => hsel (e.trans hnew.symm), List.append_nil]
      · refine ⟨cls2, hcls2, ?_⟩
        rw [if_neg hnew, if_neg hsel, if_neg hnew, List.nil_append]

/-! ### An order whose reply is followed by a re-run of selection (R68, R70, R78, R158) -/

/-- A state whose placing of posts is through: it is the old one but for the origins. -/
theorem flush_shape (s : State) : flush s = { s with
    posts := [], origins := (flush s).origins, service := { s.service with origin := (flush s).service.origin } } := by
  have h := flush_sansOrigins s
  have hserv := flush_service s
  generalize flush s = t at h hserv
  cases t
  cases s
  simp only [State.sansOrigins, State.mk.injEq] at h hserv ⊢
  obtain ⟨h1, h2, h3, h4, h5, h6, -, -, h9, h10, h11, h12, h13, h14, h15, h16, h17, h18, h19, h20, h21⟩ := h
  exact ⟨h1, h2, h3, h4, h5, h6, trivial, hserv, h9, h10, h11, h12, h13, h14, h15, h16, h17, h18, h19, h20, h21⟩

section
variable {o : Origin} {ident : Byte} {c : OrderCode} {r : ResultCode} {b : List Byte} {q : OriginState} {s0 u : State}

/-- An order answered first: what the placing gives every origin, that of the order included. -/
theorem flush_replied {z : State} {x : List Post} (hq : u.origin o = some q) (hrep : q.hasReply = false)
    (hz : ∀ o', z.origin o' = (answer o r b (running o ident c u)).origin o') (hres : z.restarting = false)
    (hposts : z.posts = [] ++ ⟨o, .reply⟩ :: x) (hx : ∀ o', OnlyNotices o' x) (hures : u.restarting = false) (hu : u.posts = []) (o' : Origin) :
    (flush z).origin o' = (replied o ident c r b u).told o' (ranked (noticesTo o' x)) := by
  have hreplying := replying_answer (ident := ident) (c := c) (r := r) (b := b) hq hu
  rw [State.told, replied_restarting, hures, if_neg (by simp), replied_origin hq hrep]
  by_cases ho : o' = o
  · subst ho
    rw [flush_reply_notices hres hposts (fun _ hx => (List.not_mem_nil hx).elim) (hx o'), hz, hreplying.own, if_pos rfl]
    rfl
  · have honly : OnlyNotices o' z.posts := by
      rw [hposts]
      intro y hy hd
      rcases List.mem_cons.mp hy with rfl | hy
      · exact absurd hd.symm ho
      · exact hx o' y hy hd
    have hnot : noticesTo o' z.posts = noticesTo o' x := by rw [hposts]; rfl
    rw [flush_origin honly, State.told, if_neg (by rw [hres]; simp), hz, hreplying.other o' ho, hnot, if_neg ho]

variable (hq : u.origin o = some q) (hrep : q.hasReply = false) (hu : u.posts = []) (hres : u.restarting = false)
  (hs : u.streams = s0.streams) (hp : ∀ a : PortIx, (u.ports[a]).state = .leaving → (s0.ports[a]).state = .leaving)
  (hd : u.drainSets = s0.drainSets) (ho : u.origins = s0.origins) (hsel : u.tb.selected = s0.tb.selected)
include hq hrep hu hres hs hp hd ho hsel

/-- Such an event leaves what selection leaves: of the timebase, of S, and of the ports, by their roles. -/
theorem finish_reselects : Reselects (replied o ident c r b u) 6
    (.next (finish s0 (reselect .lost (answer o r b (running o ident c u))))) := by
  have hreplying := replying_answer (ident := ident) (c := c) (r := r) (b := b) hq hu
  have hans := answer_running (ident := ident) (c := c) (r := r) (b := b) hq
  obtain ⟨origins, service, hw⟩ := hreplying.shape
  generalize hwdef : answer o r b (running o ident c u) = w at hreplying hw hans
  have hselection : w.selection TimebaseCause.lost.code = (replied o ident c r b u).selection 6 :=
    (selection_congr (by rw [hw]) (by rw [hw]) (by rw [hw]) 6).trans
      (selection_congr replied_tb replied_settings replied_clock 6).symm
  obtain ⟨roles, freeReads, hroles, honly, hserv, hports⟩ := postRoles_told s0 (reselect .lost w)
  have hy := reselect_eq .lost w
  rw [hselection] at hy
  have hstreams : (reselect .lost w).streams = s0.streams := by rw [hy, hw]; exact hs
  have hfin : finish s0 (reselect .lost w) = flush (postRoles s0 (reselect .lost w)) := by
    unfold finish
    rw [settleDrains_quiet (sameFifos_of_eq hstreams), judgeAllEase_quiet (sameFifos_of_eq hstreams)]
    refine queueFarewells_quiet fun a ha => ?_
    have hpark : (reselect .lost w).mayPark a = true := by
      have h := mayPark_flush ha
      rw [hroles] at h
      exact h
    rw [hy, hans] at hpark
    exact mayPark_of (hp a) hd ho (mayPark_modOrigin (o := o) (f := fun q => { q with slot := some ⟨ident, c.byte, some (r, b)⟩ })
      (fun q => by exact ⟨Nat.le_refl _, rfl⟩) hpark)
  have hposts : (postRoles s0 (reselect .lost w)).posts = [] ++ ⟨o, .reply⟩ ::
      (postsTo .service ((replied o ident c r b u).selection 6).2 ++ roles) := by
    rw [hroles, hy, hw]; rfl
  have horigin := flush_replied (z := postRoles s0 (reselect .lost w)) (ident := ident) (c := c) (r := r) (b := b) hq hrep
    (fun o' => by rw [hroles, hy, hwdef]; cases o' <;> rfl) (by rw [hroles, hy, hw]; exact hres) hposts
    (fun o' => onlyNotices_append (onlyNotices_postsTo o' .service _) (honly o')) hres hu
  have hshape := flush_shape (postRoles s0 (reselect .lost w))
  rw [← hfin] at horigin hshape
  generalize finish s0 (reselect .lost w) = t at horigin hshape
  have htb : t.tb = ((replied o ident c r b u).selection 6).1 := by rw [hshape, hroles, hy]
  have hfree : t.freeReads = freeReads := by rw [hshape, hroles]
  have hytb : (reselect .lost w).tb = t.tb := by rw [hy, htb]
  refine ⟨t, rfl, ?_, ?_, fun a => ?_⟩
  · refine hshape.trans ?_
    rw [hfree, hroles, hy, hans, show ([] : List Post) = u.posts from hu.symm]
    cases o <;> rfl
  · rw [horigin, noticesTo_append, noticesTo_postsTo, if_pos rfl, hserv, List.append_nil, ranked_of_kind (selection_kind _ 6)]
  · obtain ⟨cls, hcls, hnotices⟩ := hports a
    rw [hytb] at hcls hnotices
    have htold := horigin (.port a)
    rw [noticesTo_append, noticesTo_postsTo, if_neg (by simp), List.nil_append, hnotices, ← hsel] at htold
    intro told
    by_cases hsame : u.tb.selected = t.tb.selected
    · rw [if_pos hsame] at htold
      rw [replied_tb, if_pos hsame, htold]
      exact told_of_nil ..
    · rw [if_neg hsame] at htold
      rw [replied_tb, if_neg hsame]
      by_cases hnew : t.tb.selected = some (.port a)
      · rw [if_pos hnew] at htold ⊢
        exact ⟨cls, hcls, htold.trans (by rw [ranked_of_kind (k := .referenceRole) (by simp)])⟩
      · rw [if_neg hnew] at htold ⊢
        by_cases hold : u.tb.selected = some (.port a)
        · rw [if_pos hold] at htold ⊢
          exact ⟨cls, hcls, htold.trans (by rw [ranked_of_kind (k := .referenceRole) (by simp)])⟩
        · rw [if_neg hold] at htold ⊢
          rw [htold]
          exact told_of_nil ..

end

end Sys2Proof.Machine
end

section
namespace Sys2Proof.Machine

/-! ### SET PARAM, up to the parameter that it names (R170) -/

/-- The value that a SET PARAM gives. -/
def paramGiven (args : List Byte) : Int := (BitVec.ofNat 32 (field args 2 4)).toInt

/-- The value in force: the one given, clamped to the range of the parameter. -/
def Parameter.value (x : Parameter) (args : List Byte) : Int := clampInt (paramGiven args) x.range.1 x.range.2

theorem parameter?_fixed {n : Nat} (h : n = 0x20 ∨ n = 0x21) : parameter? n = none := by
  rcases h with rfl | rfl <;> rfl

theorem parameter?_unknown {n : Nat} (h : n = 0 ∨ 0x10 < n) : parameter? n = none := by
  unfold parameter?
  split
  case h_17 => rfl
  all_goals omega

section
variable {o : Origin} {args : List Byte} {w : State} {x : Parameter}

theorem ownSetParam_fixed (hl : args.length = 6) (h : field args 0 1 = 0x20 ∨ field args 0 1 = 0x21) :
    ownSetParam o args w = answer o .notPermitted [] w := by
  simp only [ownSetParam, hl, ne_eq, not_true_eq_false, if_false, if_pos h]
  rfl

theorem ownSetParam_unknown (hl : args.length = 6) (h : field args 0 1 = 0 ∨ (0x10 < field args 0 1 ∧
    field args 0 1 ≠ 0x20 ∧ field args 0 1 ≠ 0x21)) : ownSetParam o args w = answer o .badArg [] w := by
  have hn : ¬ (field args 0 1 = 0x20 ∨ field args 0 1 = 0x21) := by omega
  have hx : parameter? (field args 0 1) = none := parameter?_unknown (h.imp_right And.left)
  simp only [ownSetParam, hl, ne_eq, not_true_eq_false, if_false, if_neg hn, hx]
  rfl

section
variable (hl : args.length = 6) (hx : parameter? (field args 0 1) = some x)
include hl hx

theorem ownSetParam_noPort (hport : (if x.isPerPort then port? (field args 1 1) else some 0) = none) :
    ownSetParam o args w = answer o .badArg [] w := by
  have hn : ¬ (field args 0 1 = 0x20 ∨ field args 0 1 = 0x21) := fun h => by rw [parameter?_fixed h] at hx; cases hx
  simp only [ownSetParam, hl, ne_eq, not_true_eq_false, if_false, if_neg hn, hx, hport]
  rfl

/-- The tests of a SET PARAM of a known parameter: the right to the port, and the code of a flag. -/
theorem ownSetParam_known {p : PortIx} (hport : (if x.isPerPort then port? (field args 1 1) else some 0) = some p) :
    ownSetParam o args w =
      if x.isPerPort ∧ foreignPort o p then answer o .notPermitted [] w
      else if x.isCoded ∧ paramGiven args ≠ 0 ∧ paramGiven args ≠ 1 then answer o .badArg [] w
      else setParameter x p (x.value args) (answer o .done (beInt 4 (x.value args)) w) := by
  have hn : ¬ (field args 0 1 = 0x20 ∨ field args 0 1 = 0x21) := fun h => by rw [parameter?_fixed h] at hx; cases hx
  simp only [ownSetParam, hl, ne_eq, not_true_eq_false, if_false, if_neg hn, hx, hport]
  rfl

end

end

end Sys2Proof.Machine
end

section
namespace Sys2Proof.Machine

/-! ### SET PARAM, to the end of its event (R40, R62, R170) -/

theorem answer_with {o : Origin} {ident : Byte} {c : OrderCode} {r : ResultCode} {b : List Byte} {u : State} {q : OriginState}
    (hq : u.origin o = some q) (S : Settings) (T : Timebase) :
    { answer o r b (running o ident c u) with settings := S, tb := T } =
      answer o r b (running o ident c { u with settings := S, tb := T }) := by
  have hq' : ({ u with settings := S, tb := T } : State).origin o = some q := by rw [← hq]; cases o <;> rfl
  rw [answer_running hq, answer_running hq']
  cases o <;> rfl

theorem answer_settings {o : Origin} {ident : Byte} {c : OrderCode} {r : ResultCode} {b : List Byte} {u : State} {q : OriginState}
    (hq : u.origin o = some q) : (answer o r b (running o ident c u)).settings = u.settings ∧
      (answer o r b (running o ident c u)).tb = u.tb := by
  rw [answer_running hq]
  cases o <;> exact ⟨rfl, rfl⟩

section
variable {o : Origin} {ident : Byte} {args : List Byte} {f : Fraction} {s : State} (hs : s.ready o = true)
  (hl : args.length = 6) (hw : o = .service ∨ s.settings.frameWrite = true)
include hs hl hw

theorem setParam_runs : exec (.setParam o ident args f) s =
    .next (finish s (ownSetParam o args (running o ident .setParam (orderTaken o f s)))) := by
  refine ready_runs (c := .setParam) hs ?_ (by omega)
  rcases hw with rfl | hw
  · rfl
  · cases o with
    | service => rfl
    | port p => exact hw

/-- A SET PARAM that is answered and changes settings and timebase, but not the reference. -/
theorem setParam_with {r : ResultCode} {b : List Byte} {S : Settings} {T : Timebase} (hsel : T.selected = s.tb.selected)
    (h : ownSetParam o args (running o ident .setParam (orderTaken o f s)) =
      { answer o r b (running o ident .setParam (orderTaken o f s)) with settings := S, tb := T }) :
    exec (.setParam o ident args f) s =
      .next (replied o ident .setParam r b { orderTaken o f s with settings := S, tb := T }) := by
  obtain ⟨hfree, -⟩ := ready_iff.mp hs
  obtain ⟨-, -, q, hq, -, -⟩ := slotFree_iff.mp hfree
  have hq' : (orderTaken o f s).origin o = some q := by rw [orderTaken_origin]; exact hq
  rw [setParam_runs hs hl hw, h, answer_with hq']
  exact congrArg Host.Outcome.next (answered_ends hfree orderTaken_streams hsel (fun a ha => by
    rw [← orderTaken_state (o := o) (f := f) (s := s)]; exact ha) orderTaken_drainSets orderTaken_origins orderTaken_service
    orderTaken_posts orderTaken_restarting)

theorem setParam_answered {r : ResultCode} (h : ownSetParam o args (running o ident .setParam (orderTaken o f s)) =
      answer o r [] (running o ident .setParam (orderTaken o f s))) :
    exec (.setParam o ident args f) s = .next (replied o ident .setParam r [] (orderTaken o f s)) := by
  obtain ⟨-, -, q, hq, -, -⟩ := slotFree_iff.mp (ready_iff.mp hs).1
  have hq' : (orderTaken o f s).origin o = some q := by rw [orderTaken_origin]; exact hq
  obtain ⟨h1, h2⟩ := answer_settings (ident := ident) (c := .setParam) (r := r) (b := []) hq'
  have hself : answer o r [] (running o ident .setParam (orderTaken o f s)) =
      { answer o r [] (running o ident .setParam (orderTaken o f s)) with
        settings := (orderTaken o f s).settings, tb := (orderTaken o f s).tb } := by rw [← h1, ← h2]
  exact setParam_with hs hl hw (S := (orderTaken o f s).settings) (T := (orderTaken o f s).tb) (by rw [orderTaken_tb])
    (h.trans hself)

/-- A SET PARAM of a setting whose change has no other effect. -/
theorem setParam_sets {g : Settings → Settings} {b : List Byte} (h : ownSetParam o args (running o ident .setParam (orderTaken o f s)) =
      modSettings g (answer o .done b (running o ident .setParam (orderTaken o f s)))) :
    exec (.setParam o ident args f) s = .next (replied o ident .setParam .done b
      { orderTaken o f s with settings := g (orderTaken o f s).settings }) := by
  obtain ⟨-, -, q, hq, -, -⟩ := slotFree_iff.mp (ready_iff.mp hs).1
  have hq' : (orderTaken o f s).origin o = some q := by rw [orderTaken_origin]; exact hq
  obtain ⟨h1, h2⟩ := answer_settings (ident := ident) (c := .setParam) (r := .done) (b := b) hq'
  refine setParam_with hs hl hw (S := g (orderTaken o f s).settings) (T := (orderTaken o f s).tb) (by rw [orderTaken_tb])
    (h.trans ?_)
  rw [modSettings, h1, ← h2]

end

section
variable {o : Origin} {args : List Byte} {w : State} {x : Parameter}

/-- A flag, or an egress mode, that is 0 or 1. -/
theorem value_coded (hc : x.isCoded = true) (h : paramGiven args = 0 ∨ paramGiven args = 1) : x.value args = paramGiven args := by
  have hrange : x.range = (0, 1) := by cases x <;> simp_all [Parameter.isCoded, Parameter.range]
  rw [Parameter.value, hrange]
  rcases h with h | h <;> rw [h] <;> rfl

variable (hl : args.length = 6) (hx : parameter? (field args 0 1) = some x)
include hl hx

/-- A parameter of the hub. -/
theorem ownSetParam_hub (hp : x.isPerPort = false) (hc : x.isCoded = true → paramGiven args = 0 ∨ paramGiven args = 1) :
    ownSetParam o args w = setParameter x 0 (x.value args) (answer o .done (beInt 4 (x.value args)) w) := by
  rw [ownSetParam_known hl hx (p := 0) (by rw [hp]; rfl), if_neg (fun e => Bool.false_ne_true (hp.symm.trans e.1)),
    if_neg fun e => (hc e.1).elim (fun h => e.2.1 h) fun h => e.2.2 h]

theorem ownSetParam_badFlag (hp : x.isPerPort = false) (hc : x.isCoded = true) (h0 : paramGiven args ≠ 0) (h1 : paramGiven args ≠ 1) :
    ownSetParam o args w = answer o .badArg [] w := by
  rw [ownSetParam_known hl hx (p := 0) (by rw [hp]; rfl), if_neg (fun e => Bool.false_ne_true (hp.symm.trans e.1)), if_pos ⟨hc, h0, h1⟩]

variable {p : PortIx} (hp : x.isPerPort = true)
include hp

theorem ownSetParam_noSuchPort (h : 11 < field args 1 1) : ownSetParam o args w = answer o .badArg [] w :=
  ownSetParam_noPort hl hx (by rw [if_pos hp]; exact index?_none h)

variable (hport : field args 1 1 = p.val)
include hport

theorem ownSetParam_foreign {q : PortIx} (ho : o = .port q) (hne : p ≠ q) : ownSetParam o args w = answer o .notPermitted [] w := by
  rw [ownSetParam_known hl hx (p := p) (by rw [if_pos hp]; exact index?_of_val hport), if_pos]
  subst ho
  exact ⟨hp, by simp [foreignPort, Ne.symm hne]⟩

/-- A parameter of a port, from S or from the port's frame. -/
theorem ownSetParam_port (ho : o = .service ∨ o = .port p) : ownSetParam o args w =
    if x.isCoded ∧ paramGiven args ≠ 0 ∧ paramGiven args ≠ 1 then answer o .badArg [] w
    else setParameter x p (x.value args) (answer o .done (beInt 4 (x.value args)) w) := by
  rw [ownSetParam_known hl hx (p := p) (by rw [if_pos hp]; exact index?_of_val hport), if_neg]
  rcases ho with rfl | rfl <;> simp [foreignPort]

end

end Sys2Proof.Machine
end

section
namespace Sys2Proof.Machine

/-! ### The enable bit of a port (R19, R40) -/

/-- The settings with the enable bit of a port. -/
def Settings.withEnable (p : PortIx) (on : Bool) (w : Settings) : Settings := { w with enable := w.enable.set p on }

theorem setEnable_on {p : PortIx} {w : State} : setEnable p true w =
    if (w.ports[p]).state = .vacant ∧ (w.ports[p]).presence = true
    then moveTo p .listening .enable (modSettings (.withEnable p true) w) else modSettings (.withEnable p true) w := rfl

theorem setEnable_off {p : PortIx} {w : State} : setEnable p false w =
    if (w.ports[p]).state = .vacant then modSettings (.withEnable p false) w
    else resetPort p true .disable (modSettings (.withEnable p false) w) := rfl

/-- The enable bits are not among the settings that selection reads. -/
theorem withdrawal_withEnable {p q : PortIx} {on : Bool} {u : State} :
    ({ u with settings := u.settings.withEnable p on } : State).withdrawal q = u.withdrawal q := by
  unfold State.withdrawal State.selection
  rfl

section
variable {o : Origin} {ident : Byte} {p : PortIx} {b : List Byte} {q : OriginState} {s u t : State}

theorem answer_enabled {on : Bool} (hq : u.origin o = some q) :
    modSettings (.withEnable p on) (answer o .done b (running o ident .setParam u)) =
      answer o .done b (running o ident .setParam { u with settings := u.settings.withEnable p on }) := by
  obtain ⟨h1, h2⟩ := answer_settings (ident := ident) (c := .setParam) (r := .done) (b := b) hq
  rw [← answer_with hq (u.settings.withEnable p on) u.tb, modSettings, h1, ← h2]

/-- A present VACANT port starts with its enable bit. -/
theorem enable_starts
    (ht : t = finish s (moveTo p .listening .enable (modSettings (.withEnable p true) (answer o .done b (running o ident .setParam u))))) :
    (t.ports[p]).state = .listening ∧ t.settings.enable[p] = true ∧ t.HoldsNothing p := by
  rw [moveTo_out (.inr (.inl rfl))] at ht
  have htab := tables_finish s ((modSettings (.withEnable p true) (answer o .done b (running o ident .setParam u))).withPortOut p
    .listening .enable)
  rw [← ht] at htab
  refine ⟨?_, ?_, ht ▸ holdsNothing_finish (.inr (.inl rfl))⟩
  · rw [htab.ports]
    simp only [State.withPortOut, vget_set, if_true]
    exact leaves_state ..
  · rw [htab.settings]
    show (Settings.withEnable p true _).enable[p] = true
    simp only [Settings.withEnable, vget_set, if_true]

/-- A port that is not VACANT loses what it holds with its enable bit. -/
theorem disable_resets (hq : u.origin o = some q) (hrep : q.hasReply = false) (hu : u.posts = []) (hres : u.restarting = false)
    (ht : t = finish s (resetPort p true .disable (modSettings (.withEnable p false) (answer o .done b (running o ident .setParam u))))) :
    (t.ports[p]).state = .vacant ∧ t.settings.enable[p] = false ∧ (t.ports[p]).failures = 0 ∧ t.HoldsNothing p ∧
    LeavesService p .disable (replied o ident .setParam .done b u) t ∧
    ((u.ports[p]).state = .active → u.streams = s.streams → u.tb = s.tb → u.settings = s.settings → t.StandsNowhere p ∧
      ∀ st r, s.streams[(st : StreamIx)] = some r → s.produces p st = true → Drains s t st r) := by
  let u' : State := { u with settings := u.settings.withEnable p false }
  have hq' : u'.origin o = some q := by rw [← hq]; cases o <;> rfl
  rw [answer_enabled hq] at ht
  have hreplying : Replying o _ u' _ := replying_answer (ident := ident) (c := .setParam) (r := .done) (b := b) hq' hu
  obtain ⟨hst, hfail, -, hnothing, ⟨-, -, -, -, -, -, hset, -⟩, htb⟩ := reset_leaves hreplying ht
  have hto : u'.resetTo p true = .vacant := if_neg (by simp)
  rw [hto] at hst
  have hwith : u'.withdrawal p = u.withdrawal p := withdrawal_withEnable
  rw [hwith] at htb
  refine ⟨hst, ?_, hfail, hnothing, leavesService_of hq hrep hres hst htb fun hn => ?_, fun hact hs htb hset =>
    reset_nowhere hreplying ht hact hs (by rw [← htb]) (by rw [← hset]; rfl)⟩
  · rw [hset]
    show (Settings.withEnable p false _).enable[p] = false
    simp only [Settings.withEnable, vget_set, if_true]
  · have htold := reset_told hreplying ht hres hn
    rw [hto, hwith] at htold
    refine htold.trans ?_
    rw [show u'.origin .service = u.origin .service from rfl]

end

end Sys2Proof.Machine
end

section
namespace Sys2Proof.Machine

/-! ### The best candidate (R66, R67) -/

section
variable {s : State}

/-- One step of the comparison of R67: a source against the best of those before it. -/
def State.better (s : State) (best : Option (Source × Candidacy)) (c : Source) : Option (Source × Candidacy) :=
  match s.eligible c, best with
  | some x, some (_, y) => if x.before y then some (c, x) else best
  | some x, none => some (c, x)
  | none, _ => best

theorem best_eq (s : State) : s.best = allSources.foldl s.better none := rfl

theorem better_ineligible {c : Source} (h : s.eligible c = none) (best : Option (Source × Candidacy)) : s.better best c = best := by
  unfold State.better
  rw [h]

theorem better_stays {c d : Source} {y : Candidacy} (h : ∀ x, s.eligible c = some x → x.before y = false) :
    s.better (some (d, y)) c = some (d, y) := by
  cases hx : s.eligible c with
  | none => exact better_ineligible hx _
  | some x => simp only [State.better, hx, h x hx, Bool.false_eq_true, if_false]

theorem better_eligible {c d : Source} {y : Candidacy} {best : Option (Source × Candidacy)}
    (hb : ∀ c y, best = some (c, y) → s.eligible c = some y) (h : s.better best c = some (d, y)) : s.eligible d = some y := by
  cases hx : s.eligible c with
  | none => rw [better_ineligible hx] at h; exact hb d y h
  | some x =>
    unfold State.better at h
    rw [hx] at h
    rcases best with _ | ⟨e, z⟩
    · cases h; exact hx
    · dsimp only at h
      split at h
      · cases h; exact hx
      · exact hb d y h

/-- The best candidate is eligible. -/
theorem best_eligible {c : Source} {y : Candidacy} (h : s.best = some (c, y)) : s.eligible c = some y := by
  have key : ∀ (l : List Source) (b : Option (Source × Candidacy)), (∀ c y, b = some (c, y) → s.eligible c = some y) →
      ∀ c y, l.foldl s.better b = some (c, y) → s.eligible c = some y := by
    intro l
    induction l with
    | nil => intro b hb; exact hb
    | cons d l ih => intro b hb; exact ih _ fun c y => better_eligible hb
  exact key allSources none (fun _ _ h => by cases h) c y h

theorem best_none (h : ∀ c, s.eligible c = none) : s.best = none := by
  have key : ∀ l : List Source, l.foldl s.better none = none := by
    intro l
    induction l with
    | nil => rfl
    | cons d l ih => rw [List.foldl_cons, better_ineligible (h d)]; exact ih
  exact key allSources

/-- REFIN is the best where no port is before it. -/
theorem best_refin {y : Candidacy} (hr : s.eligible .refin = some y)
    (hp : ∀ (p : PortIx) x, s.eligible (.port p) = some x → x.before y = false) : s.best = some (.refin, y) := by
  have key : ∀ l : List PortIx, (l.map Source.port).foldl s.better (some (.refin, y)) = some (.refin, y) := by
    intro l
    induction l with
    | nil => rfl
    | cons p l ih => rw [List.map_cons, List.foldl_cons, better_stays (hp p)]; exact ih
  have hfirst : s.better none .refin = some (.refin, y) := by unfold State.better; rw [hr]
  rw [best_eq, allSources, List.foldl_cons, hfirst]
  exact key allPorts

end

/-- What selection compares, where the settings of REFIN alone differ. -/
theorem eligible_port {s v : State} (h : v.tb = s.tb) (p : PortIx) : v.eligible (.port p) = s.eligible (.port p) := by
  have hf : v.isFailed (.port p) = s.isFailed (.port p) := by simp only [State.isFailed, h]
  have hc : v.candidacy (.port p) = s.candidacy (.port p) := by simp only [State.candidacy, h]
  unfold State.eligible
  rw [hf, hc]

theorem eligible_refin (s : State) : s.eligible .refin =
    if s.tb.refinFailed = false ∧ s.settings.refinEnable = true ∧ s.tb.refinActive = true
    then some ⟨s.settings.refinClass, 0⟩ else none := by
  unfold State.eligible
  by_cases hf : s.tb.refinFailed = true
  · have hf' : s.isFailed .refin = true := hf
    rw [if_pos hf', if_neg fun e => by rw [hf] at e; cases e.1]
  · have hf' : ¬ s.isFailed .refin = true := hf
    rw [if_neg hf']
    exact if_congr (by rw [Bool.and_eq_true]; exact ⟨fun e => ⟨Bool.eq_false_iff.mpr hf, e⟩, And.right⟩) rfl rfl

/-! ### What selection leaves, row by row (R68, R69, R75) -/

section
variable {v : State} {gone : Nat} {c : Source} {y : Candidacy}

theorem selection_free (hst : v.tb.state = .free) (hb : v.best = some (c, y)) : v.selection gone =
    (v.tb.acquires c v.clock.cycle, [(.timebaseEvent, timebaseFields 0 1 1 (sourceCode (some c)) y.cls v.tb.savedTrim v.now)]) := by
  simp only [State.selection, hst, hb]
  rfl

theorem selection_idle (hst : v.tb.state = .free ∨ v.tb.state = .holdover) (hb : v.best = none) : v.selection gone = (v.tb, []) := by
  rcases hst with hst | hst <;> simp only [State.selection, hst, hb]

theorem selection_unlocks (hst : v.tb.state = .locked) (he : v.selectedEligible = false) (hb : v.best = none) : v.selection gone =
    (v.tb.holds, [(.timebaseEvent, timebaseFields 2 3 6 15 0 v.tb.savedTrim v.now)]) := by
  simp only [State.selection, hst, he, hb]
  rfl

theorem selection_frees (hst : v.tb.state = .acquiring) (he : v.selectedEligible = false) (hb : v.best = none) :
    v.selection gone = (v.tb.frees v.settings.localTrim,
      [(.timebaseEvent, timebaseFields 1 0 gone 15 0 v.settings.localTrim v.now)]) := by
  simp only [State.selection, hst, he, hb]
  rfl

theorem selection_switches (hst : v.tb.state = .locked) (he : v.selectedEligible = true) (hb : v.best = some (c, y))
    (hlt : v.classOf v.tb.selected < y.cls) : v.selection gone =
    (v.tb.acquires c v.clock.cycle, [(.timebaseEvent, timebaseFields 2 1 2 (sourceCode (some c)) y.cls v.tb.savedTrim v.now)]) := by
  simp only [State.selection, hst, he, hb, if_pos hlt]
  rfl

theorem selection_stays (hst : v.tb.state = .locked) (he : v.selectedEligible = true)
    (hb : ∀ c y, v.best = some (c, y) → y.cls ≤ v.classOf v.tb.selected) : v.selection gone = (v.tb, []) := by
  cases hbest : v.best with
  | none => simp only [State.selection, hst, he, hbest]
  | some cy =>
    obtain ⟨c, y⟩ := cy
    simp only [State.selection, hst, he, hbest, if_neg (Nat.not_lt.mpr (hb c y hbest))]

end

end Sys2Proof.Machine
end

section
namespace Sys2Proof.Machine

/-! ### The parameters of REFIN (R63, R67 to R70) -/

section
variable {v t : State} {out : Host.Outcome State Fault Refusal}

/-- A re-run of selection of which the outcome is known. -/
theorem reselects_leads {x : Timebase} {l : Notices} (h : Reselects v 6 out) (hsel : v.selection 6 = (x, l)) : Runs out fun t =>
    t.tb = x ∧ t.settings = v.settings ∧ t.ports = v.ports ∧ t.streams = v.streams ∧
    t.origin .service = v.told .service l ∧ RolesTold v t := by
  obtain ⟨t, hout, hshape, htold, hroles⟩ := h
  rw [hsel] at hshape htold
  exact ⟨t, hout, by rw [hshape], by rw [hshape], by rw [hshape], by rw [hshape], htold, hroles⟩

/-- A re-run of selection stands by the candidates, and does nothing where there is neither a reference nor a candidate. -/
theorem reselects_idle (h : Reselects v 6 out) : Runs out fun t => t.settings = v.settings ∧ t.ports = v.ports ∧
    t.streams = v.streams ∧ t.tb.candidates = v.tb.candidates ∧
    (v.tb.state = .free ∨ v.tb.state = .holdover → v.best = none → t.tb = v.tb) := by
  obtain ⟨t, hout, hshape, -⟩ := h
  refine ⟨t, hout, by rw [hshape], by rw [hshape], by rw [hshape], ?_, fun hst hb => ?_⟩
  · rw [hshape]; exact (selection_selected v 6).1
  · rw [hshape]
    exact congrArg Prod.fst (selection_idle hst hb)

end

/-- The order has been answered, and the settings are new ones. -/
def State.parameterSet (s : State) (o : Origin) (ident : Byte) (f : Fraction) (b : List Byte) (S : Settings) : State :=
  replied o ident .setParam .done b { orderTaken o f s with settings := S }

section
variable {o : Origin} {ident : Byte} {args : List Byte} {f : Fraction} {s : State} {b : List Byte} {S : Settings}

theorem parameterSet_tb : (s.parameterSet o ident f b S).tb = s.tb := replied_tb.trans orderTaken_tb
theorem parameterSet_settings : (s.parameterSet o ident f b S).settings = S := replied_settings
theorem parameterSet_ports : (s.parameterSet o ident f b S).ports = (orderTaken o f s).ports := replied_ports
theorem parameterSet_streams : (s.parameterSet o ident f b S).streams = s.streams := replied_streams.trans orderTaken_streams

theorem parameterSet_clock : (s.parameterSet o ident f b S).clock.cycle = s.clock.cycle ∧
    (s.parameterSet o ident f b S).now = (opened f s).now := by
  cases o <;> exact ⟨rfl, rfl⟩

theorem parameterSet_eligible (p : PortIx) : (s.parameterSet o ident f b S).eligible (.port p) = s.eligible (.port p) :=
  eligible_port parameterSet_tb p

theorem parameterSet_refin : (s.parameterSet o ident f b S).eligible .refin =
    if s.tb.refinFailed = false ∧ S.refinEnable = true ∧ s.tb.refinActive = true then some ⟨S.refinClass, 0⟩ else none := by
  rw [eligible_refin, parameterSet_tb, parameterSet_settings]

/-- Without REFIN the candidates are the ports as they were. -/
theorem parameterSet_best_none (hr : (s.parameterSet o ident f b S).eligible .refin = none) (hp : ∀ p : PortIx, s.eligible (.port p) = none) :
    (s.parameterSet o ident f b S).best = none :=
  best_none fun c => by
    cases c with
    | refin => exact hr
    | port p => rw [parameterSet_eligible]; exact hp p

section
variable (hs : s.ready o = true) (hl : args.length = 6) (hw : o = .service ∨ s.settings.frameWrite = true) {g : Settings → Settings}
  (h : ownSetParam o args (running o ident .setParam (orderTaken o f s)) =
    reselect .lost (modSettings g (answer o .done b (running o ident .setParam (orderTaken o f s)))))
include hs hl hw h

omit hl hw in
/-- The answered state whose settings are the new ones. -/
theorem ownSetParam_reselects : ownSetParam o args (running o ident .setParam (orderTaken o f s)) =
    reselect .lost (answer o .done b (running o ident .setParam { orderTaken o f s with settings := g s.settings })) := by
  obtain ⟨-, -, q, hq, -, -⟩ := slotFree_iff.mp (ready_iff.mp hs).1
  have hq' : (orderTaken o f s).origin o = some q := by rw [orderTaken_origin]; exact hq
  obtain ⟨h1, h2⟩ := answer_settings (ident := ident) (c := .setParam) (r := .done) (b := b) hq'
  rw [h, ← answer_with hq' (g s.settings) (orderTaken o f s).tb, modSettings, h1, ← h2, orderTaken_settings]

theorem setParam_reselects : Reselects (s.parameterSet o ident f b (g s.settings)) 6 (exec (.setParam o ident args f) s) := by
  obtain ⟨hfree, -⟩ := ready_iff.mp hs
  obtain ⟨-, hres, q, hq, -, hrep⟩ := slotFree_iff.mp hfree
  rw [setParam_runs hs hl hw, ownSetParam_reselects hs h]
  refine finish_reselects (u := { orderTaken o f s with settings := g s.settings }) (q := q) ?_ hrep orderTaken_posts
    (orderTaken_restarting.trans hres) orderTaken_streams (fun a ha => ?_) orderTaken_drainSets orderTaken_origins ?_
  · rw [← hq, ← orderTaken_origin (o := o) (f := f) (s := s)]; cases o <;> rfl
  · rw [← orderTaken_state (o := o) (f := f) (s := s)]; exact ha
  · exact congrArg Timebase.selected orderTaken_tb

/-- Where selection finds nothing to do, the setting is all that changes. -/
theorem setParam_selected (hsel : (s.parameterSet o ident f b (g s.settings)).selection 6 = (s.tb, [])) :
    exec (.setParam o ident args f) s = .next (s.parameterSet o ident f b (g s.settings)) := by
  obtain ⟨hfree, -⟩ := ready_iff.mp hs
  obtain ⟨-, -, q, hq, -, -⟩ := slotFree_iff.mp hfree
  have hq' : ({ orderTaken o f s with settings := g s.settings } : State).origin o = some q := by
    rw [← hq, ← orderTaken_origin (o := o) (f := f) (s := s)]; cases o <;> rfl
  have hans := answer_settings (ident := ident) (c := .setParam) (r := .done) (b := b) hq'
  have hclock : (answer o .done b (running o ident .setParam { orderTaken o f s with settings := g s.settings })).clock =
      (s.parameterSet o ident f b (g s.settings)).clock := by
    rw [answer_running hq', State.parameterSet]
    cases o <;> rfl
  have hnone : reselect .lost (answer o .done b (running o ident .setParam { orderTaken o f s with settings := g s.settings })) =
      answer o .done b (running o ident .setParam { orderTaken o f s with settings := g s.settings }) := by
    have hcode : (answer o .done b (running o ident .setParam { orderTaken o f s with settings := g s.settings })).selection
        TimebaseCause.lost.code = (s.tb, []) := by
      rw [← hsel]
      exact selection_congr (by rw [hans.2, parameterSet_tb]; exact orderTaken_tb) (by rw [hans.1, parameterSet_settings])
        hclock 6
    have htb : s.tb = (answer o .done b (running o ident .setParam { orderTaken o f s with settings := g s.settings })).tb := by
      rw [hans.2]; exact orderTaken_tb.symm
    rw [reselect_eq, hcode, htb]
    simp only [postsTo, List.map_nil, List.append_nil]
  rw [setParam_runs hs hl hw, ownSetParam_reselects hs h, hnone]
  exact congrArg Host.Outcome.next (answered_ends hfree orderTaken_streams (congrArg Timebase.selected orderTaken_tb) (fun a ha => by
    rw [← orderTaken_state (o := o) (f := f) (s := s)]; exact ha) orderTaken_drainSets orderTaken_origins orderTaken_service
    orderTaken_posts orderTaken_restarting)

end

end

end Sys2Proof.Machine
end

section
namespace Sys2Proof.Machine

section
variable {o : Origin} {ident : Byte} {args : List Byte} {f : Fraction} {s : State} (hs : s.ready o = true) (hl : args.length = 6)
  (hw : o = .service ∨ s.settings.frameWrite = true)

/-- The settings with REFIN enabled or not, and with a class of REFIN. -/
def Settings.withRefin (on : Bool) (w : Settings) : Settings := { w with refinEnable := on }
def Settings.withRefinClass (n : Nat) (w : Settings) : Settings := { w with refinClass := n }

/-- The class of REFIN that a SET PARAM puts in force. -/
def refinClassGiven (args : List Byte) : Nat := (max 0 (min (paramGiven args) 3)).toNat

theorem refinClassGiven_eq (args : List Byte) : ((refinClassGiven args : Nat) : Int) = Parameter.refinClass.value args :=
  Int.toNat_of_nonneg (le_max_left _ _)

include hl in
theorem ownSetParam_refinEnable {w : State} (hc : field args 0 1 = 0x09) (h : paramGiven args = 0 ∨ paramGiven args = 1) :
    ownSetParam o args w = reselect .lost (modSettings (.withRefin (paramGiven args == 1))
      (answer o .done (beInt 4 (paramGiven args)) w)) := by
  rw [ownSetParam_hub hl (x := .refinEnable) (by rw [hc]; rfl) rfl fun _ => h, value_coded rfl h]
  rfl

include hl in
theorem ownSetParam_refinClass {w : State} (hc : field args 0 1 = 0x0A) :
    ownSetParam o args w = reselect .lost (modSettings (.withRefinClass (refinClassGiven args))
      (answer o .done (beInt 4 (refinClassGiven args)) w)) := by
  rw [ownSetParam_hub hl (x := .refinClass) (by rw [hc]; rfl) rfl (fun e => by cases e), ← refinClassGiven_eq]
  rfl

include hs hl hw

theorem setParam_refinEnable (hc : field args 0 1 = 0x09) (h : paramGiven args = 0 ∨ paramGiven args = 1) :
    Reselects (s.parameterSet o ident f (beInt 4 (paramGiven args)) (s.settings.withRefin (paramGiven args == 1))) 6
      (exec (.setParam o ident args f) s) :=
  setParam_reselects hs hl hw (ownSetParam_refinEnable hl hc h)

theorem setParam_refinClass (hc : field args 0 1 = 0x0A) :
    Reselects (s.parameterSet o ident f (beInt 4 (refinClassGiven args)) (s.settings.withRefinClass (refinClassGiven args))) 6
      (exec (.setParam o ident args f) s) :=
  setParam_reselects hs hl hw (ownSetParam_refinClass hl hc)

end

section
variable {o : Origin} {ident : Byte} {f : Fraction} {s : State} {b : List Byte} {n : Nat}

/-- What an enabled REFIN finds in FREE, and a disabled one leaves. -/
theorem enabled_selection (hst : s.tb.state = .free) (hp : ∀ p : PortIx, s.eligible (.port p) = none) (ha : s.tb.refinActive = true)
    (hf : s.tb.refinFailed = false) : (s.parameterSet o ident f b (s.settings.withRefin true)).selection 6 =
      (s.tb.acquires .refin s.clock.cycle,
        [(.timebaseEvent, timebaseFields 0 1 1 14 s.settings.refinClass s.tb.savedTrim (opened f s).now)]) := by
  have hr : (s.parameterSet o ident f b (s.settings.withRefin true)).eligible .refin = some ⟨s.settings.refinClass, 0⟩ := by
    rw [parameterSet_refin, if_pos ⟨hf, rfl, ha⟩]; rfl
  obtain ⟨hcycle, hnow⟩ := parameterSet_clock (s := s) (o := o) (ident := ident) (f := f) (b := b) (S := s.settings.withRefin true)
  have h := selection_free (gone := 6) (by rw [parameterSet_tb]; exact hst)
    (best_refin hr fun p x hx => by rw [parameterSet_eligible, hp p] at hx; cases hx)
  rw [hcycle, hnow, parameterSet_tb] at h
  exact h

section
variable (hsel : s.tb.selected = some .refin) (hp : ∀ p : PortIx, s.eligible (.port p) = none)
include hsel hp

theorem disabled_none : (s.parameterSet o ident f b (s.settings.withRefin false)).selectedEligible = false ∧
    (s.parameterSet o ident f b (s.settings.withRefin false)).best = none := by
  have hr : (s.parameterSet o ident f b (s.settings.withRefin false)).eligible .refin = none := by
    rw [parameterSet_refin, if_neg fun e => by cases e.2.1]
  refine ⟨?_, parameterSet_best_none hr hp⟩
  rw [State.selectedEligible, parameterSet_tb, hsel, Option.bind_some, hr]; rfl

theorem disabled_locked (hst : s.tb.state = .locked) :
    (s.parameterSet o ident f b (s.settings.withRefin false)).selection 6 =
      (s.tb.holds, [(.timebaseEvent, timebaseFields 2 3 6 15 0 s.tb.savedTrim (opened f s).now)]) := by
  obtain ⟨he, hb⟩ := disabled_none (o := o) (ident := ident) (f := f) (b := b) hsel hp
  have h := selection_unlocks (gone := 6) (by rw [parameterSet_tb]; exact hst) he hb
  rw [parameterSet_clock.2, parameterSet_tb] at h
  exact h

theorem disabled_acquiring (hst : s.tb.state = .acquiring) :
    (s.parameterSet o ident f b (s.settings.withRefin false)).selection 6 =
      (s.tb.frees s.settings.localTrim, [(.timebaseEvent, timebaseFields 1 0 6 15 0 s.settings.localTrim (opened f s).now)]) := by
  obtain ⟨he, hb⟩ := disabled_none (o := o) (ident := ident) (f := f) (b := b) hsel hp
  have h := selection_frees (gone := 6) (by rw [parameterSet_tb]; exact hst) he hb
  rw [parameterSet_clock.2, parameterSet_tb, parameterSet_settings] at h
  exact h

end

/-! ### The class of REFIN in LOCKED (R67, R68) -/

theorem classed_refin (s : State) (o : Origin) (ident : Byte) (f : Fraction) (b : List Byte) (n : Nat) :
    (s.parameterSet o ident f b (s.settings.withRefinClass n)).eligible .refin =
      (s.eligible .refin).map (fun y => ⟨n, y.rank⟩) := by
  rw [parameterSet_refin, eligible_refin]
  have hset : (s.settings.withRefinClass n).refinEnable = s.settings.refinEnable := rfl
  by_cases h : s.tb.refinFailed = false ∧ s.settings.refinEnable = true ∧ s.tb.refinActive = true
  · rw [if_pos h, if_pos (by rw [hset]; exact h)]; rfl
  · rw [if_neg h, if_neg (by rw [hset]; exact h)]; rfl

/-- The reference stays a candidate, whatever the class of REFIN. -/
theorem classed_selected (h : s.selectedEligible = true) :
    (s.parameterSet o ident f b (s.settings.withRefinClass n)).selectedEligible = true ∧
    (s.parameterSet o ident f b (s.settings.withRefinClass n)).classOf s.tb.selected =
      if s.tb.selected = some .refin then n else s.classOf s.tb.selected := by
  rw [State.selectedEligible] at h ⊢
  rw [parameterSet_tb]
  rcases hsel : s.tb.selected with _ | _ | p
  · rw [hsel] at h; cases h
  · rw [hsel, Option.bind_some] at h
    rw [Option.bind_some, classed_refin, if_pos rfl]
    obtain ⟨y, hy⟩ := Option.isSome_iff_exists.mp h
    have hel := classed_refin s o ident f b n
    rw [hy, Option.map_some] at hel
    refine ⟨by rw [hy]; rfl, ?_⟩
    have hc : (s.parameterSet o ident f b (s.settings.withRefinClass n)).candidacy .refin = some ⟨n, y.rank⟩ := by
      rw [← hel, State.eligible, if_neg]
      intro hfail
      rw [State.eligible, if_pos hfail] at hel
      cases hel
    rw [State.classOf, Option.bind_some, hc]; rfl
  · rw [hsel, Option.bind_some] at h
    rw [Option.bind_some, parameterSet_eligible, if_neg (by simp)]
    refine ⟨h, ?_⟩
    rw [State.classOf, State.classOf, Option.bind_some, Option.bind_some, State.candidacy, State.candidacy, parameterSet_tb]

theorem classed_switches (hst : s.tb.state = .locked) (he : s.selectedEligible = true) (hsel : s.tb.selected ≠ some .refin)
    (hr : s.eligible .refin ≠ none) (hlt : s.classOf s.tb.selected < n)
    (hp : ∀ (p : PortIx) x, s.eligible (.port p) = some x → x.cls ≤ n) :
    (s.parameterSet o ident f b (s.settings.withRefinClass n)).selection 6 = (s.tb.acquires .refin s.clock.cycle,
      [(.timebaseEvent, timebaseFields 2 1 2 14 n s.tb.savedTrim (opened f s).now)]) := by
  obtain ⟨he', hcls⟩ := classed_selected (o := o) (ident := ident) (f := f) (b := b) (n := n) he
  rw [if_neg hsel] at hcls
  have hrefin : (s.parameterSet o ident f b (s.settings.withRefinClass n)).eligible .refin = some ⟨n, 0⟩ := by
    have h := classed_refin s o ident f b n
    rw [parameterSet_refin] at h ⊢
    split at h
    · rename_i hc; rw [if_pos hc]; rfl
    · rw [eq_comm, Option.map_eq_none_iff] at h; exact absurd h hr
  obtain ⟨hcycle, hnow⟩ := parameterSet_clock (s := s) (o := o) (ident := ident) (f := f) (b := b) (S := s.settings.withRefinClass n)
  have h := selection_switches (gone := 6) (by rw [parameterSet_tb]; exact hst) he' (best_refin hrefin fun p x hx => by
    rw [parameterSet_eligible] at hx
    have := hp p x hx
    simp only [Candidacy.before, Bool.or_eq_false_iff, decide_eq_false_iff_not, Bool.and_eq_false_iff]
    exact ⟨by omega, .inr (by simp)⟩) (by rw [parameterSet_tb, hcls]; exact hlt)
  rw [hcycle, hnow, parameterSet_tb] at h
  exact h

theorem classed_stays {cls : Nat} (hst : s.tb.state = .locked) (he : s.selectedEligible = true)
    (hcls : cls = if s.tb.selected = some .refin then n else s.classOf s.tb.selected) (hr : s.eligible .refin ≠ none → n ≤ cls)
    (hp : ∀ (p : PortIx) x, s.eligible (.port p) = some x → x.cls ≤ cls) :
    (s.parameterSet o ident f b (s.settings.withRefinClass n)).selection 6 = (s.tb, []) := by
  obtain ⟨he', hclass⟩ := classed_selected (o := o) (ident := ident) (f := f) (b := b) (n := n) he
  have h := selection_stays (gone := 6) (v := s.parameterSet o ident f b (s.settings.withRefinClass n))
    (by rw [parameterSet_tb]; exact hst) he' fun c y hb => by
      have hy := best_eligible hb
      rw [parameterSet_tb, hclass, ← hcls]
      cases c with
      | refin =>
        rw [classed_refin] at hy
        obtain ⟨z, hz, rfl⟩ := Option.map_eq_some_iff.mp hy
        exact hr (by rw [hz]; simp)
      | port p =>
        rw [parameterSet_eligible] at hy
        exact hp p y hy
  rw [parameterSet_tb] at h
  exact h

end

theorem referenceParameters : Claims.ReferenceParameters := by
  intro o ident args f s hs hl hw given acquiring set leads now
  have hgiven : given = paramGiven args := rfl
  refine ⟨fun hc h => setParam_refinEnable hs hl hw hc h, fun hc => setParam_refinClass hs hl hw hc, fun hc h => ?_, fun hc h hsel hp => ?_,
    fun hc hst he => ⟨fun hsel hr hlt hp => ?_, fun cls hcls hr hp => ?_⟩⟩
  · intro u hst hsel hp ha hf
    have hre := setParam_refinEnable (ident := ident) (f := f) hs hl hw hc (.inr h)
    rw [show paramGiven args = 1 from h] at hre
    exact reselects_leads hre (enabled_selection hst hp ha hf)
  · have hre := setParam_refinEnable (ident := ident) (f := f) hs hl hw hc (.inl h)
    rw [show paramGiven args = 0 from h] at hre
    exact ⟨fun hst => reselects_leads hre (disabled_locked hsel hp hst), fun hst => reselects_leads hre (disabled_acquiring hsel hp hst)⟩
  · exact reselects_leads (setParam_refinClass hs hl hw hc) (classed_switches hst he hsel hr hlt hp)
  · exact setParam_selected hs hl hw (ownSetParam_refinClass hl hc) (classed_stays hst he hcls hr hp)

end Sys2Proof.Machine
end

section
namespace Sys2Proof.Machine

/-! ### SET PARAM, parameter by parameter (R40, R62, R170) -/

section
variable {o : Origin} {ident : Byte} {args : List Byte} {f : Fraction} {s : State} (hs : s.ready o = true) (hl : args.length = 6)
  (hw : o = .service ∨ s.settings.frameWrite = true)
include hs hl hw

/-- A setting of the hub that is clamped. -/
theorem setParam_hub {x : Parameter} {g : Int → Settings → Settings} (hx : parameter? (field args 0 1) = some x)
    (hp : x.isPerPort = false) (hc : x.isCoded = true → paramGiven args = 0 ∨ paramGiven args = 1)
    (hset : ∀ p v w, setParameter x p v w = modSettings (g v) w) : exec (.setParam o ident args f) s =
      .next (replied o ident .setParam .done (beInt 4 (x.value args))
        { orderTaken o f s with settings := g (x.value args) (orderTaken o f s).settings }) :=
  setParam_sets hs hl hw (by rw [ownSetParam_hub hl hx hp hc, hset])

/-- A local trim acts in FREE. -/
theorem setParam_localTrim (hc : field args 0 1 = 0x08) (hst : s.tb.state = .free) : exec (.setParam o ident args f) s =
    .next (replied o ident .setParam .done (beInt 4 (Parameter.localTrim.value args)) { orderTaken o f s with
      settings := { (orderTaken o f s).settings with localTrim := Parameter.localTrim.value args }
      tb := { (orderTaken o f s).tb with trim := Parameter.localTrim.value args, savedTrim := Parameter.localTrim.value args } }) := by
  obtain ⟨-, -, q, hq, -, -⟩ := slotFree_iff.mp (ready_iff.mp hs).1
  have hq' : (orderTaken o f s).origin o = some q := by rw [orderTaken_origin]; exact hq
  obtain ⟨h1, h2⟩ := answer_settings (ident := ident) (c := .setParam) (r := .done) (b := beInt 4 (Parameter.localTrim.value args)) hq'
  refine setParam_with hs hl hw (by rw [orderTaken_tb]) ?_
  rw [ownSetParam_hub hl (x := .localTrim) (by rw [hc]; rfl) rfl (fun e => by cases e), ← h1, ← h2]
  have hfree : (answer o .done (beInt 4 (Parameter.localTrim.value args)) (running o ident .setParam (orderTaken o f s))).tb.state =
      .free := by rw [h2, orderTaken_tb]; exact hst
  exact if_pos hfree

theorem setParam_localTrim_kept (hc : field args 0 1 = 0x08) (hst : s.tb.state ≠ .free) : exec (.setParam o ident args f) s =
    .next (replied o ident .setParam .done (beInt 4 (Parameter.localTrim.value args)) { orderTaken o f s with
      settings := { (orderTaken o f s).settings with localTrim := Parameter.localTrim.value args } }) := by
  obtain ⟨-, -, q, hq, -, -⟩ := slotFree_iff.mp (ready_iff.mp hs).1
  have hq' : (orderTaken o f s).origin o = some q := by rw [orderTaken_origin]; exact hq
  obtain ⟨h1, h2⟩ := answer_settings (ident := ident) (c := .setParam) (r := .done) (b := beInt 4 (Parameter.localTrim.value args)) hq'
  refine setParam_sets hs hl hw (g := fun w => { w with localTrim := Parameter.localTrim.value args }) ?_
  rw [ownSetParam_hub hl (x := .localTrim) (by rw [hc]; rfl) rfl fun e => by cases e]
  have hlocked : (answer o .done (beInt 4 (Parameter.localTrim.value args)) (running o ident .setParam (orderTaken o f s))).tb.state ≠
      .free := by rw [h2, orderTaken_tb]; exact hst
  exact if_neg hlocked

section
variable {x : Parameter} (hx : parameter? (field args 0 1) = some x) (hp : x.isPerPort = true)
include hx hp

/-- The refusals of a parameter of a port. -/
theorem setParam_portRefused : (11 < field args 1 1 →
      exec (.setParam o ident args f) s = .next (replied o ident .setParam .badArg [] (orderTaken o f s))) ∧
    (∀ p q : PortIx, o = .port q → field args 1 1 = p.val → p ≠ q →
      exec (.setParam o ident args f) s = .next (replied o ident .setParam .notPermitted [] (orderTaken o f s))) ∧
    ∀ p : PortIx, field args 1 1 = p.val → (o = .service ∨ o = .port p) → x.isCoded = true → paramGiven args ≠ 0 →
      paramGiven args ≠ 1 → exec (.setParam o ident args f) s = .next (replied o ident .setParam .badArg [] (orderTaken o f s)) := by
  refine ⟨fun h => setParam_answered hs hl hw (ownSetParam_noSuchPort hl hx hp h), fun p q ho hport hne =>
    setParam_answered hs hl hw (ownSetParam_foreign hl hx hp hport ho hne), fun p hport ho hc h0 h1 =>
    setParam_answered hs hl hw ?_⟩
  rw [ownSetParam_port hl hx hp hport ho, if_pos ⟨hc, h0, h1⟩]

variable {p : PortIx} (hport : field args 1 1 = p.val) (ho : o = .service ∨ o = .port p)
  (hc : x.isCoded = true → paramGiven args = 0 ∨ paramGiven args = 1)
include hport ho hc

omit hs hw in
theorem ownSetParam_own {w : State} : ownSetParam o args w =
    setParameter x p (x.value args) (answer o .done (beInt 4 (x.value args)) w) := by
  rw [ownSetParam_port hl hx hp hport ho, if_neg fun e => (hc e.1).elim (fun h => e.2.1 h) fun h => e.2.2 h]

/-- A setting of a port. -/
theorem setParam_port {g : Settings → Settings} (hset : ∀ w, setParameter x p (x.value args) w = modSettings g w) :
    exec (.setParam o ident args f) s = .next (replied o ident .setParam .done (beInt 4 (x.value args))
      { orderTaken o f s with settings := g (orderTaken o f s).settings }) :=
  setParam_sets hs hl hw (by rw [ownSetParam_own hl hx hp hport ho hc, hset])

end

/-- The enable bit of a port. -/
theorem setParam_enable {p : PortIx} (hcode : field args 0 1 = 0x01) (hport : field args 1 1 = p.val)
    (ho : o = .service ∨ o = .port p) :
    let u := orderTaken o f s
    let set (v : Int) (g : Settings → Settings) : Prop := exec (.setParam o ident args f) s =
      .next (replied o ident .setParam .done (be 4 (BitVec.ofInt 32 v).toNat) { u with settings := g u.settings })
    (paramGiven args = 1 →
      ((s.ports[p]).state = .vacant ∧ (s.ports[p]).presence = true → Runs (exec (.setParam o ident args f) s) fun t =>
        (t.ports[p]).state = .listening ∧ t.settings.enable[p] = true ∧ t.HoldsNothing p) ∧
      (¬ ((s.ports[p]).state = .vacant ∧ (s.ports[p]).presence = true) → set 1 (.withEnable p true))) ∧
    (paramGiven args = 0 → ((s.ports[p]).state = .vacant → set 0 (.withEnable p false)) ∧
      ((s.ports[p]).state ≠ .vacant → Runs (exec (.setParam o ident args f) s) fun t =>
        (t.ports[p]).state = .vacant ∧ t.settings.enable[p] = false ∧ (t.ports[p]).failures = 0 ∧ t.HoldsNothing p ∧
        LeavesService p .disable (replied o ident .setParam .done (be 4 0) u) t ∧
        ((s.ports[p]).state = .active → t.StandsNowhere p ∧
          ∀ st r, s.streams[(st : StreamIx)] = some r → s.produces p st = true → Drains s t st r))) := by
  intro u set
  obtain ⟨-, hres, q, hq, -, hrep⟩ := slotFree_iff.mp (ready_iff.mp hs).1
  have hq' : u.origin o = some q := by rw [orderTaken_origin]; exact hq
  have hw' : ∀ b, ((answer o .done b (running o ident .setParam u)).ports[p]).state = (s.ports[p]).state ∧
      ((answer o .done b (running o ident .setParam u)).ports[p]).presence = (s.ports[p]).presence := fun b => by
    rw [answer_running hq']
    exact ⟨(by cases o <;> rfl : _ = (u.ports[p]).state).trans (orderTaken_state p),
      (by cases o <;> rfl : _ = (u.ports[p]).presence).trans (orderTaken_presence p)⟩
  have hown : ∀ v, paramGiven args = v → v = 0 ∨ v = 1 → ownSetParam o args (running o ident .setParam u) =
      setEnable p (v == 1) (answer o .done (beInt 4 v) (running o ident .setParam u)) := fun v hv h => by
    have hcoded : paramGiven args = 0 ∨ paramGiven args = 1 := by rw [hv]; exact h
    rw [ownSetParam_own hl (x := .portEnable) (by rw [hcode]; rfl) rfl hport ho fun _ => hcoded, value_coded rfl hcoded, hv]
    rfl
  refine ⟨fun hg => ?_, fun hg => ?_⟩
  · have h1 := hown 1 hg (.inr rfl)
    rw [show ((1 : Int) == 1) = true from rfl, setEnable_on, (hw' _).1, (hw' _).2] at h1
    refine ⟨fun hv => ⟨_, setParam_runs hs hl hw, ?_⟩, fun hv => setParam_sets hs hl hw (g := .withEnable p true) (b := beInt 4 1) ?_⟩
    · rw [if_pos hv] at h1
      exact enable_starts (by rw [h1])
    · rw [h1, if_neg hv]
  · have h0 := hown 0 hg (.inl rfl)
    rw [show ((0 : Int) == 1) = false from rfl, setEnable_off, (hw' _).1] at h0
    refine ⟨fun hv => setParam_sets hs hl hw (g := .withEnable p false) (b := beInt 4 0) ?_, fun hv => ⟨_, setParam_runs hs hl hw, ?_⟩⟩
    · rw [h0, if_pos hv]
    · rw [if_neg hv] at h0
      obtain ⟨hst, hen, hfail, hnothing, hleaves, hact⟩ := disable_resets (s := s) hq' hrep orderTaken_posts
        (orderTaken_restarting.trans hres) (congrArg (finish s) h0)
      exact ⟨hst, hen, hfail, hnothing, hleaves, fun h => hact ((orderTaken_state p).trans h) orderTaken_streams orderTaken_tb
        orderTaken_settings⟩

end

/-- Without a reference, and with REFIN as it was, there is no candidate. -/
theorem parameterSet_idle {s : State} {o : Origin} {ident : Byte} {f : Fraction} {b : List Byte} {S : Settings} (hlaw : s.ReferenceLaw)
    (hst : s.tb.state = .free ∨ s.tb.state = .holdover)
    (hr : (s.parameterSet o ident f b S).eligible .refin = s.eligible .refin) : (s.parameterSet o ident f b S).best = none := by
  have heligible : (s.parameterSet o ident f b S).eligible = s.eligible := funext fun c => by
    cases c with
    | refin => exact hr
    | port p => exact parameterSet_eligible p
  have hbest : (s.parameterSet o ident f b S).best = s.best := by simp only [State.best, heligible]
  have hlaw := hlaw.1
  rw [hbest]
  rcases hst with hst | hst <;> rw [hst] at hlaw <;> exact hlaw.2

theorem setParameters : Claims.SetParameters := by
  intro o ident args f s hs hl hw u code given out refused set clamped
  have hparam : ∀ {n : Nat} {x : Parameter}, code = n → parameter? n = some x → parameter? code = some x :=
    fun h hx => (congrArg parameter? h).trans hx
  have hub : ∀ (x : Parameter) (g : Int → Settings → Settings), parameter? code = some x → x.isPerPort = false →
      (x.isCoded = true → given = 0 ∨ given = 1) → (∀ p v w, setParameter x p v w = modSettings (g v) w) →
      set (x.value args) (g (x.value args)) := fun x g hx hp hc hset => setParam_hub hs hl hw hx hp hc hset
  refine ⟨fun h => setParam_answered hs hl hw (ownSetParam_fixed hl h), fun h => setParam_answered hs hl hw (ownSetParam_unknown hl h),
    fun hcode => ?_, fun hcode h0 h1 => ?_, fun hcode h => ?_, fun hcode => ?_, fun hcode => ?_, fun hcode => ?_, fun hcode => ?_,
    fun hcode => ⟨setParam_localTrim_kept hs hl hw hcode, setParam_localTrim hs hl hw hcode⟩, fun hcode h => ?_, fun hcode => ?_,
    fun hcode => ?_, fun hcode => ?_, fun hcode => ?_, fun hcode => ?_, fun hcode => ?_⟩
  · obtain ⟨x, hx, hp, hcoded⟩ : ∃ x, parameter? code = some x ∧ x.isPerPort = true ∧ (code ≠ 0x07 → x.isCoded = true) := by
      rcases hcode with h | h | h <;> rw [h]
      · exact ⟨.portEnable, rfl, rfl, fun _ => rfl⟩
      · exact ⟨.asymmetry, rfl, rfl, fun e => absurd rfl e⟩
      · exact ⟨.egressMode, rfl, rfl, fun _ => rfl⟩
    obtain ⟨hnone, hforeign, hflag⟩ := setParam_portRefused (ident := ident) (f := f) hs hl hw hx hp
    refine ⟨hnone, hforeign, fun p hport ho => ⟨fun hne => hflag p hport ho (hcoded hne), fun hc => ?_, fun hc h => ?_, fun hc => ?_,
      fun hc => ?_⟩⟩
    · exact setParam_port hs hl hw (x := .asymmetry)
        (g := fun w => { w with asymmetry := w.asymmetry.set p (Parameter.asymmetry.value args) }) (hparam hc rfl) rfl hport ho (fun e => by cases e) fun w => rfl
    · have hset := setParam_port (ident := ident) (f := f) hs hl hw (x := .egressMode)
        (g := fun w => { w with ranked := w.ranked.set p (Parameter.egressMode.value args == 1) }) (hparam hc rfl) rfl hport ho (fun _ => h)
        fun w => rfl
      rw [value_coded (x := .egressMode) rfl h] at hset
      exact hset
    · exact (setParam_enable hs hl hw hc hport ho).1
    · exact (setParam_enable hs hl hw hc hport ho).2
  · obtain ⟨x, hx, hp, hc⟩ : ∃ x, parameter? code = some x ∧ x.isPerPort = false ∧ x.isCoded = true := by
      rcases hcode with h | h <;> rw [h]
      · exact ⟨.frameWrite, rfl, rfl, rfl⟩
      · exact ⟨.refinEnable, rfl, rfl, rfl⟩
    exact setParam_answered hs hl hw (ownSetParam_badFlag hl hx hp hc h0 h1)
  · have hset := hub .frameWrite (fun v w => { w with frameWrite := v == 1 }) (hparam hcode rfl) rfl (fun _ => h) fun _ _ _ => rfl
    rw [value_coded (x := .frameWrite) rfl h] at hset
    exact hset
  · exact hub .gate (fun v w => { w with gate := v.toNat }) (hparam hcode rfl) rfl (fun e => by cases e) fun _ _ _ => rfl
  · exact hub .slew (fun v w => { w with slew := v.toNat }) (hparam hcode rfl) rfl (fun e => by cases e) fun _ _ _ => rfl
  · exact hub .promptCount (fun v w => { w with promptCount := v.toNat }) (hparam hcode rfl) rfl (fun e => by cases e) fun _ _ _ => rfl
  · exact hub .echoExp (fun v w => { w with echoExp := v.toNat }) (hparam hcode rfl) rfl (fun e => by cases e) fun _ _ _ => rfl
  · obtain ⟨t, hout, hset, hports, hstreams, hcand, hidle⟩ := reselects_idle (setParam_refinEnable (ident := ident) (f := f) hs hl hw hcode h)
    refine ⟨t, hout, hset.trans parameterSet_settings, hports.trans parameterSet_ports, hstreams.trans parameterSet_streams,
      hcand.trans (by rw [parameterSet_tb]), fun hst ha hlaw => ?_⟩
    rw [parameterSet_tb] at hidle
    refine hidle hst (parameterSet_idle hlaw hst ?_)
    have hinactive : ∀ a b : Prop, ¬ (a ∧ b ∧ s.tb.refinActive = true) := fun a b e => by rw [ha] at e; cases e.2.2
    rw [parameterSet_refin, eligible_refin, if_neg (hinactive _ _), if_neg (hinactive _ _)]
  · obtain ⟨t, hout, hset, hports, hstreams, hcand, hidle⟩ := reselects_idle (setParam_refinClass (ident := ident) (f := f) hs hl hw hcode)
    refine ⟨t, hout, hset.trans parameterSet_settings, hports.trans parameterSet_ports, hstreams.trans parameterSet_streams,
      hcand.trans (by rw [parameterSet_tb]), fun hst ha hlaw => ?_⟩
    rw [parameterSet_tb] at hidle
    exact hidle hst (parameterSet_idle hlaw hst (by rw [classed_refin, ha]; rfl))
  · exact hub .holdoverLimit (fun v w => { w with holdoverLimit := v.toNat }) (hparam hcode rfl) rfl (fun e => by cases e) fun _ _ _ => rfl
  · exact hub .orphanHold (fun v w => { w with orphanHold := v.toNat }) (hparam hcode rfl) rfl (fun e => by cases e) fun _ _ _ => rfl
  · exact hub .drainLimit (fun v w => { w with drainLimit := v.toNat }) (hparam hcode rfl) rfl (fun e => by cases e) fun _ _ _ => rfl
  · exact hub .joinLimit (fun v w => { w with joinLimit := v.toNat }) (hparam hcode rfl) rfl (fun e => by cases e) fun _ _ _ => rfl
  · exact hub .holdLimit (fun v w => { w with holdLimit := v.toNat }) (hparam hcode rfl) rfl (fun e => by cases e) fun _ _ _ => rfl

/-- Settles O57: by the parameter's code; the parameters of REFIN by the rows of selection. -/
theorem setParam : Obligations.SetParam :=
  ⟨setParameters, referenceParameters⟩

end Sys2Proof.Machine
end

section
namespace Sys2Proof.Machine

/-! ### The completion of a hub restart (R44, R82, R105, R118, R153, R165, R172) -/

/-- What selection leaves of the timebase besides its choice. -/
theorem selection_beat (s : State) (gone : Nat) :
    (s.selection gone).1.beat = s.tb.beat ∧ (s.selection gone).1.beatExp = s.tb.beatExp := by
  simp only [State.selection]
  rcases s.best with _ | ⟨c, y⟩ <;> cases s.tb.state <;> cases s.selectedEligible <;> dsimp only
  case some.acquiring.true | some.locked.true => split <;> exact ⟨rfl, rfl⟩
  all_goals exact ⟨rfl, rfl⟩

/-- The tables of a restarted hub, before its ports start again (R105, R118, R153). -/
def State.cleared (s : State) : State := { s with
  store := .initial
  streams := Vector.replicate 64 none
  taps := Vector.replicate 128 none
  settings := loadSettings s.setup.words
  lines := Vector.replicate 32 (.initial (loadSettings s.setup.words).defaultLatency (loadSettings s.setup.words).defaultHoldoff)
  pins := loadPins s.setup.words (fun i => (s.pins.toList.map (·.wire)).getD i false)
  delays := Vector.replicate 12 .initial
  egress := s.egress.map (fun e => { Egress.initial with lastStop := e.ended })
  triggers := Vector.replicate 12 .initial
  drainSets := Vector.replicate 12 []
  origins := Vector.replicate 12 none }

/-- The timebase of a restarted hub (R82). -/
def State.restartTb (s : State) : Timebase :=
  let t := (s.cleared.selection 6).1
  let t := if t.state = .free then
    { t with trim := s.cleared.settings.localTrim, savedTrim := s.cleared.settings.localTrim } else t
  { t with locks := 0, unlocks := 0, acquisitionFailures := 0, holdoverExpiries := 0 }

/-- The record of a port that a restarted hub starts again (R44). -/
def Port.restarts (x : Port) (enabled : Bool) (cycle : Nat) : Port :=
  ({ x with counters := PortCounters.zero, failures := 0, fillRun := 0 }).leaves
    (if x.presence && enabled then .listening else .vacant) cycle

/-- Nothing is held for any port. -/
def State.bare (s : State) : Prop := s.origins = Vector.replicate 12 none ∧ s.streams = Vector.replicate 64 none ∧
  s.delays = Vector.replicate 12 .initial ∧ (∀ p : PortIx, (s.egress[p]).dueBeat = none) ∧
  s.triggers = Vector.replicate 12 .initial ∧ s.drainSets = Vector.replicate 12 []

/-- The entry to a state out of service is the change of state without its PORT EVENT. -/
theorem enterState_out {p : PortIx} {st : PortState} {s : State} (h : st = .vacant ∨ st = .listening ∨ st = .faulted) :
    enterState p st s = { s.withPortOut p st .reset with posts := s.posts } := by
  rcases h with rfl | rfl | rfl <;>
    simp only [enterState, outOfService, dropCloses_eq, modPort, modDelay, modEgress, emptyTriggers, modTriggers, setDrainSet,
      vget_set, if_true, Vector.set_set, State.withPortOut, Port.leaves]

theorem vset_same {α : Type} {n : Nat} {v : Vector α n} {i : Fin n} {a : α} (h : v[i] = a) : v.set i a = v := by
  rw [← h, vset_self]

theorem vget_replicate {α : Type} {n : Nat} (a : α) (i : Fin n) : (Vector.replicate n a)[i] = a := Vector.getElem_replicate _

/-- Where nothing is held for the ports, one that starts again changes its record alone. -/
theorem restartPort_eq {p : PortIx} {s : State} (h : s.bare) : restartPort p s = { s with
    ports := s.ports.set p ((s.ports[p]).restarts s.settings.enable[p] s.clock.cycle) } := by
  obtain ⟨ho, hs, hd, he, ht, hr⟩ := h
  have horigins : s.origins.set p none = s.origins := vset_same (by rw [ho]; exact vget_replicate ..)
  have hstreams : s.streams.map (Option.map (Stream.forgets (.port p))) = s.streams := by
    rw [hs]
    refine Vector.ext fun i hi => ?_
    simp only [Vector.getElem_map, Vector.getElem_replicate, Option.map_none]
  have hdelays : s.delays.set p (s.delays[p]).clear = s.delays := vset_same (by rw [hd, vget_replicate]; rfl)
  have hegress : s.egress.set p { s.egress[p] with dueBeat := none } = s.egress := by
    refine vset_same ?_
    have hp := he p
    generalize s.egress[p] = e at hp
    cases e
    subst hp
    rfl
  have htriggers : s.triggers.set p .initial = s.triggers := vset_same (by rw [ht]; exact vget_replicate ..)
  have hsets : s.drainSets.set p [] = s.drainSets := vset_same (by rw [hr]; exact vget_replicate ..)
  have hcleared : (modPort p (fun x => { x with counters := PortCounters.zero, failures := 0, fillRun := 0 }) s).ports[p] =
      { s.ports[p] with counters := PortCounters.zero, failures := 0, fillRun := 0 } := by simp only [modPort, vget_set, if_true]
  have henter : ∀ st : PortState, st = .vacant ∨ st = .listening ∨ st = .faulted →
      enterState p st (modPort p (fun x => { x with counters := PortCounters.zero, failures := 0, fillRun := 0 }) s) = { s with
        ports := s.ports.set p (({ s.ports[p] with counters := PortCounters.zero, failures := 0, fillRun := 0 } : Port).leaves st
          s.clock.cycle) } := fun st hst => by
    rw [enterState_out hst, State.withPortOut, hcleared]
    simp only [modPort, Vector.set_set, horigins, hstreams, hdelays, hegress, htriggers, hsets]
  unfold restartPort Port.restarts
  dsimp only
  rw [hcleared]
  split
  · rename_i hp
    have hp' : ((s.ports[p]).presence && s.settings.enable[p]) = true := hp
    rw [if_pos hp', henter _ (.inr (.inl rfl))]
  · rename_i hp
    have hp' : ¬ ((s.ports[p]).presence && s.settings.enable[p]) = true := hp
    rw [if_neg hp', henter _ (.inl rfl)]

/-- Ports that start again, one after the other. -/
theorem each_restartPort {s : State} (h : s.bare) : ∃ ports, each allPorts restartPort s = { s with ports := ports } ∧
    ∀ p : PortIx, ports[p] = (s.ports[p]).restarts s.settings.enable[p] s.clock.cycle := by
  have key := each_taking (is := allPorts) (f := restartPort) (s := s)
    (Inv := fun pre u => u = { s with ports := u.ports } ∧ ∀ p : PortIx, u.ports[p] =
      if p ∈ pre then (s.ports[p]).restarts s.settings.enable[p] s.clock.cycle else s.ports[p])
    ⟨rfl, fun p => (if_neg List.not_mem_nil).symm⟩ fun pre i rest hall u ⟨hu, hp⟩ => by
      have hpre : i ∉ pre := fun hi => (List.nodup_append.mp (hall ▸ nodup_allPorts)).2.2 i hi i List.mem_cons_self rfl
      have hbare : u.bare := by rw [hu]; exact h
      have hset : u.settings = s.settings ∧ u.clock = s.clock := by rw [hu]; exact ⟨rfl, rfl⟩
      rw [restartPort_eq hbare, hset.1, hset.2]
      refine ⟨by rw [hu], fun p => ?_⟩
      simp only [vget_set]
      by_cases hi : p = i
      · subst hi
        rw [if_pos rfl, if_pos (List.mem_append_right _ (List.mem_singleton_self _)), hp, if_neg hpre]
      · rw [if_neg hi, hp]
        exact if_congr ⟨fun e => List.mem_append_left _ e, fun e => (List.mem_append.mp e).resolve_right
          (by simpa using hi)⟩ rfl rfl
  exact ⟨_, key.1, fun p => (key.2 p).trans (if_pos (mem_allPorts p))⟩

theorem cleared_bare (s : State) : s.cleared.bare :=
  ⟨rfl, rfl, rfl, fun p => by
    show ((s.egress.map _)[p] : Egress).dueBeat = none
    rw [vget_map]
    rfl, rfl, rfl⟩

/-- The last steps of a completion: the ports start again, S keeps the DONE alone. -/
def State.restartEnds (s : State) : State :=
  let u := each allPorts restartPort s
  { u with service := ⟨u.service.origin.restarted, 0, u.service.transaction.restarted⟩, posts := [], restarting := false }

/-- All that the completion of a hub restart does. -/
theorem completeRestart_eq (s : State) : ∃ ports, completeRestart s = { s.cleared with
      tb := s.restartTb, ports := ports
      service := ⟨s.service.origin.restarted, 0, s.service.transaction.restarted⟩, posts := [], restarting := false } ∧
    ∀ p : PortIx, ports[p] = (s.ports[p]).restarts s.cleared.settings.enable[p] s.clock.cycle := by
  have htb : restartTimebase s.cleared = { s.cleared with
      tb := s.restartTb, posts := s.posts ++ postsTo .service (s.cleared.selection 6).2 } := by
    rw [restartTimebase, reselect_eq]
    rfl
  obtain ⟨ports, he, hp⟩ := each_restartPort (s := restartTimebase s.cleared) (by rw [htb]; exact cleared_bare s)
  rw [htb] at he hp
  refine ⟨ports, ?_, hp⟩
  have hcomplete : completeRestart s = (restartTimebase s.cleared).restartEnds := by
    unfold completeRestart State.cleared State.restartEnds
    rfl
  rw [hcomplete, htb, State.restartEnds, he]
  rfl

end Sys2Proof.Machine
end

section
namespace Sys2Proof.Machine

/-! ### The end of the event in which a restart completes (R82, R165) -/

theorem modOrigin_none {p : PortIx} {f : OriginState → OriginState} {s : State} (h : s.origins[p] = none) :
    modOrigin (.port p) f s = s := by
  have hset : s.origins.set p ((s.origins[p]).map f) = s.origins := vset_same (by rw [h]; rfl)
  unfold modOrigin
  dsimp only
  rw [hset]

section
variable {s : State} (h : s.bare)
include h

theorem bare_stream (st : StreamIx) : s.streams[st] = none := by rw [h.2.1]; exact vget_replicate ..

theorem bare_origin (p : PortIx) : s.origins[p] = none := by rw [h.1]; exact vget_replicate ..

/-- Where nothing is held for a port and no stream is left, the end of an event has nothing to settle, and roles are told to
no one. -/
theorem finish_bare (s0 : State) (hp : s.posts = []) : ∃ freeReads, finish s0 s = { s with posts := [], freeReads := freeReads } := by
  have hsettle : settleDrains s0 s = s := settleDrains_unemptied fun st hst => by
    rw [State.isEmptied, bare_stream h] at hst
    cases hst
  have hease : judgeAllEase s0 s = s := each_fixed fun st _ => by
    split
    · rfl
    · simp only [judgeEase, bare_stream h]
  obtain ⟨posts, freeReads, hroles, honly, hnone, -⟩ := postRoles_told s0 s
  have hdest : ∀ x ∈ posts, x.dest ≠ .service := fun x hx hd => by
    obtain ⟨k, b, hitem⟩ := honly .service x hx hd
    have hmem : (k, b) ∈ noticesTo .service posts := List.mem_filterMap.mpr ⟨x, hx, by rw [hitem]; exact if_pos hd⟩
    rw [hnone] at hmem
    cases hmem
  have hflush : flush (postRoles s0 s) = { s with posts := [], freeReads := freeReads } := by
    have hplace : ∀ x ∈ posts, place x { s with posts := [], freeReads := freeReads } = { s with posts := [], freeReads := freeReads } :=
      fun x hx => by
        obtain ⟨d, item⟩ := x
        cases d with
        | service => exact absurd rfl (hdest _ hx)
        | port p => cases item <;> exact modOrigin_none (bare_origin h p)
    rw [hroles, hp]
    unfold flush
    refine each_fixed fun x hx => hplace x ?_
    obtain ⟨k, -, hx⟩ := List.mem_flatMap.mp hx
    have hx := List.mem_of_mem_filter hx
    split at hx
    · cases hx
    · exact hx
  refine ⟨freeReads, ?_⟩
  unfold finish
  rw [hsettle, hease, hflush]
  refine queueFarewells_quiet fun p hpark => ?_
  have horigin : ({ s with posts := [], freeReads := freeReads } : State).origins[p] = none := bare_origin h p
  unfold State.mayPark at hpark
  rw [horigin] at hpark
  simp at hpark

end

/-- A hub restart has been completed: what the hub is then, beside what it was (R44, R82, R105, R118, R153, R165, R172). -/
def Completed (ident : Byte) (s t : State) : Prop :=
  t.restarting = false ∧ sameRackTime s t ∧ t.tb.beatExp = s.tb.beatExp ∧ t.tb.beat = s.tb.beat ∧
  t.setup = s.setup ∧ t.settings = loadSettings s.setup.words ∧ t.store = ⟨List.range 1024, 1024, 0, 0⟩ ∧
  (∀ st : StreamIx, t.streams[st] = none) ∧ (∀ v : TapIx, t.taps[v] = none) ∧
  (∀ l : LineIx, t.lines[l] = ⟨t.settings.defaultLatency, t.settings.defaultHoldoff, Vector.replicate 12 false, none,
    0, 0, 0, 0⟩) ∧
  (∀ i : PinIx, t.pins[i] = loadPin s.setup.words i (s.pins[i]).wire) ∧
  (t.tb.locks, t.tb.unlocks, t.tb.acquisitionFailures, t.tb.holdoverExpiries) = (0, 0, 0, 0) ∧
  (t.tb.state = .free → t.tb.trim = t.settings.localTrim ∧ t.tb.savedTrim = t.settings.localTrim) ∧
  t.service.discards = 0 ∧
  t.service.origin = ⟨some ⟨ident, 0x1A, some (.done, [])⟩, [.reply true ident 0x1A .done []], 0, false⟩ ∧
  t.attn = true ∧ ∀ p : PortIx,
    (t.ports[p]).state = (if (s.ports[p]).presence && t.settings.enable[p] then .listening else .vacant) ∧
    (t.ports[p]).presence = (s.ports[p]).presence ∧ (t.ports[p]).counters = PortCounters.zero ∧
    (t.ports[p]).failures = 0 ∧ (t.ports[p]).fillRun = 0 ∧ t.HoldsNothing p ∧ (t.egress[p]).flight = none ∧
    (t.egress[p]).rotation = 127

theorem loadPins_get (words : Vector (BitVec 32) 24) (pins : Vector Pin 4) (i : PinIx) :
    (loadPins words (fun i => (pins.toList.map (·.wire)).getD i false))[i] = loadPin words i (pins[i]).wire := by
  have hwire : ∀ i : PinIx, (pins.toList.map (·.wire)).getD i.val false = (pins[i]).wire := fun i => by
    simp [List.getD_eq_getElem?_getD]
  rw [← hwire]
  fin_cases i <;> rfl

theorem restartTb_keeps (s : State) : s.restartTb.beat = s.tb.beat ∧ s.restartTb.beatExp = s.tb.beatExp ∧
    (s.restartTb.locks, s.restartTb.unlocks, s.restartTb.acquisitionFailures, s.restartTb.holdoverExpiries) = (0, 0, 0, 0) ∧
    (s.restartTb.state = .free → s.restartTb.trim = s.cleared.settings.localTrim ∧
      s.restartTb.savedTrim = s.cleared.settings.localTrim) := by
  obtain ⟨hbeat, hexp⟩ := selection_beat s.cleared 6
  unfold State.restartTb
  dsimp only
  split
  · exact ⟨hbeat, hexp, rfl, fun _ => ⟨rfl, rfl⟩⟩
  · rename_i hst
    exact ⟨hbeat, hexp, rfl, fun e => absurd e hst⟩

/-- The record of a port that starts again (R44). -/
theorem restarts_port (x : Port) (enabled : Bool) (cycle : Nat) :
    (x.restarts enabled cycle).state = (if x.presence && enabled then .listening else .vacant) ∧
    (x.restarts enabled cycle).presence = x.presence ∧ (x.restarts enabled cycle).counters = PortCounters.zero ∧
    (x.restarts enabled cycle).failures = 0 ∧ (x.restarts enabled cycle).fillRun = 0 := by
  refine ⟨leaves_state .., leaves_presence .., leaves_counters .., ?_⟩
  unfold Port.restarts
  split <;> exact ⟨rfl, rfl⟩

theorem restarts_holds (x : Port) (enabled : Bool) (cycle : Nat) :
    (x.restarts enabled cycle).frame = none ∧ (x.restarts enabled cycle).epoch = none ∧
    (x.restarts enabled cycle).joinDeadline = none ∧ (x.restarts enabled cycle).held = false ∧
    (x.restarts enabled cycle).holdBeats = 0 ∧ (x.restarts enabled cycle).missRun = 0 ∧ (x.restarts enabled cycle).score = 0 := by
  unfold Port.restarts
  split <;> exact ⟨rfl, rfl, rfl, rfl, rfl, rfl, rfl⟩

section
variable {s z s0 : State} {ident : Byte}

/-- The event in which a restart completes, from a state that shares with its beginning what the restart keeps. -/
theorem completeRestart_completed (hrest : z.atRest = false) (hclock : sameRackTime s z) (hbeat : z.tb.beat = s.tb.beat)
    (hexp : z.tb.beatExp = s.tb.beatExp) (hsetup : z.setup = s.setup) (hpins : z.pins = s.pins)
    (hslot : z.service.origin.slot = some ⟨ident, 0x1A, none⟩) (hpres : ∀ p : PortIx, (z.ports[p]).presence = (s.ports[p]).presence) :
    Completed ident s (finish s0 (completeRestart z)) ∧ (finish s0 (completeRestart z)).tb = z.restartTb := by
  obtain ⟨ports, hc, hports⟩ := completeRestart_eq z
  obtain ⟨freeReads, ht⟩ := finish_bare (s := completeRestart z) (by rw [hc]; exact cleared_bare z) s0 (by rw [hc])
  obtain ⟨htb1, htb2, htb3, htb4⟩ := restartTb_keeps z
  have hset : z.cleared.settings = loadSettings s.setup.words := by rw [← hsetup]; rfl
  have horigin : z.service.origin.restarted = ⟨some ⟨ident, 0x1A, some (.done, [])⟩, [.reply true ident 0x1A .done []], 0, false⟩ := by
    simp only [OriginState.restarted, hslot]
  generalize finish s0 (completeRestart z) = t at ht ⊢
  rw [hc] at ht
  subst ht
  refine ⟨⟨rfl, hclock, htb2.trans hexp, htb1.trans hbeat, hsetup, hset, rfl, fun st => ?_, fun v => ?_, fun l => ?_, fun i => ?_,
    htb3, htb4, rfl, horigin, ?_, fun p => ?_⟩, rfl⟩
  · exact vget_replicate (α := Option Stream) none st
  · exact vget_replicate (α := Option Tap) none v
  · exact vget_replicate (α := Line) _ l
  · rw [← hsetup, ← hpins]
    exact loadPins_get z.setup.words z.pins i
  · show (!z.atRest && !z.service.origin.restarted.queue.isEmpty) = true
    rw [hrest, horigin]; rfl
  · obtain ⟨h1, h2, h3, h4, h5⟩ := restarts_port z.ports[p] z.cleared.settings.enable[p] z.clock.cycle
    have hheld := restarts_holds z.ports[p] z.cleared.settings.enable[p] z.clock.cycle
    rw [← hports] at h1 h2 h3 h4 h5 hheld
    rw [hpres] at h1 h2
    have hbare := cleared_bare z
    have hegress : ∀ {β : Type} (g : Egress → β), (∀ e : Egress, g { Egress.initial with lastStop := e.ended } = g .initial) →
        g (z.cleared.egress[p]) = g .initial := fun g hg => by
      show g ((z.egress.map _)[p]) = _
      rw [vget_map]
      exact hg _
    obtain ⟨hb1, -, hb3, hb4, hb5, hb6⟩ := hbare
    have hd : z.cleared.delays[p] = .initial := by rw [hb3]; exact vget_replicate ..
    refine ⟨h1, h2, h3, h4, h5, ?_, hegress Egress.flight fun _ => rfl, hegress Egress.rotation fun _ => rfl⟩
    obtain ⟨g1, g2, g3, g4, g5, g6, g7⟩ := hheld
    refine ⟨g1, g2, g3, g4, g5, g6, g7, ?_, ?_, ?_, ?_, ?_, ?_, hb4 p, ?_⟩
    · exact congrArg Delay.estimate hd
    · exact congrArg Delay.due hd
    · exact congrArg Delay.outstanding hd
    · exact congrArg Delay.training hd
    · exact bare_origin (cleared_bare z) p
    · exact vget_replicate TriggerQueue.initial p
    · exact vget_replicate ([] : List StreamIx) p

end

end Sys2Proof.Machine
end

section
namespace Sys2Proof.Machine

/-! ### The timebase once every port candidacy is withdrawn (R65, R68, R82) -/

/-- No port is a candidate. -/
def State.portless (s : State) : State := { s with tb := { s.tb with candidates := Vector.replicate 12 none } }

/-- The timebase that the withdrawal of every port candidacy leaves. -/
def State.leftTb (s : State) : Timebase :=
  if allPorts.any (fun p => (s.tb.candidates[p]).isSome) then (s.portless.selection 6).1 else s.tb

theorem withdrawPorts_eq (s : State) : ∃ posts, withdrawPorts s = { s with tb := s.leftTb, posts := posts } := by
  unfold withdrawPorts State.leftTb
  split
  · exact ⟨_, reselect_eq .lost s.portless⟩
  · exact ⟨_, rfl⟩

section
variable {s : State}

theorem portless_ineligible (p : PortIx) : s.portless.eligible (.port p) = none := by
  unfold State.eligible
  split
  · rfl
  · exact vget_replicate (α := Option Candidacy) none p

theorem portless_refin : s.portless.eligible .refin = s.eligible .refin := by
  rw [eligible_refin, eligible_refin]
  rfl

theorem leftTb_kept : s.leftTb.beat = s.tb.beat ∧ s.leftTb.beatExp = s.tb.beatExp := by
  unfold State.leftTb
  split
  · exact selection_beat s.portless 6
  · exact ⟨rfl, rfl⟩

theorem noCandidate (h : ¬ allPorts.any (fun p => (s.tb.candidates[p]).isSome) = true) : s.tb.candidates = Vector.replicate 12 none := by
  refine Vector.ext fun i hi => ?_
  rw [Vector.getElem_replicate]
  rw [List.any_eq_true, not_exists] at h
  exact Option.not_isSome_iff_eq_none.mp fun e => h ⟨i, hi⟩ ⟨mem_allPorts _, e⟩

theorem leftTb_candidates : s.leftTb.candidates = Vector.replicate 12 none := by
  unfold State.leftTb
  split
  · exact (selection_selected s.portless 6).1
  · exact noCandidate ‹_›

/-- The reference was a candidate port and REFIN is no other one: selection finds none. -/
theorem leftTb_lost {q : PortIx} (hsel : s.tb.selected = some (.port q)) (hq : s.tb.candidates[q] ≠ none)
    (hr : s.eligible .refin = none) : s.leftTb = (s.portless.selection 6).1 ∧ s.portless.selectedEligible = false ∧
      s.portless.best = none := by
  refine ⟨if_pos (List.any_eq_true.mpr ⟨q, mem_allPorts q, Option.isSome_iff_ne_none.mpr hq⟩), ?_, best_none fun c => ?_⟩
  · have hsel' : s.portless.tb.selected = some (.port q) := hsel
    rw [State.selectedEligible, hsel', Option.bind_some, portless_ineligible]
    rfl
  · cases c with
    | refin => exact portless_refin.trans hr
    | port p => exact portless_ineligible p

theorem leftTb_holds {q : PortIx} (hst : s.tb.state = .locked) (hsel : s.tb.selected = some (.port q))
    (hq : s.tb.candidates[q] ≠ none) (hr : s.eligible .refin = none) : s.leftTb = s.portless.tb.holds := by
  obtain ⟨he, hel, hb⟩ := leftTb_lost hsel hq hr
  rw [he, selection_unlocks (v := s.portless) hst hel hb]

theorem leftTb_frees {q : PortIx} (hst : s.tb.state = .acquiring) (hsel : s.tb.selected = some (.port q))
    (hq : s.tb.candidates[q] ≠ none) (hr : s.eligible .refin = none) : s.leftTb = s.portless.tb.frees s.settings.localTrim := by
  obtain ⟨he, hel, hb⟩ := leftTb_lost hsel hq hr
  rw [he, selection_frees (v := s.portless) hst hel hb]
  rfl

/-- REFIN stays the reference: it is eligible, and no port is a candidate any longer. -/
theorem leftTb_stays (hsel : s.tb.selected = some .refin) (hr : s.eligible .refin ≠ none)
    (hst : s.tb.state = .locked ∨ s.tb.state = .acquiring) : s.leftTb = s.portless.tb := by
  unfold State.leftTb
  split
  · obtain ⟨y, hy⟩ := Option.ne_none_iff_exists'.mp hr
    have hy' : s.portless.eligible .refin = some y := portless_refin.trans hy
    have hel : s.portless.selectedEligible = true := by
      have hsel' : s.portless.tb.selected = some .refin := hsel
      rw [State.selectedEligible, hsel', Option.bind_some, hy']
      rfl
    have hb : s.portless.best = some (.refin, y) := best_refin hy' fun p x hx => by rw [portless_ineligible] at hx; cases hx
    rcases hst with hst | hst
    · have hcls : y.cls ≤ s.portless.classOf s.portless.tb.selected := by
        have hc : s.portless.candidacy .refin = some y := by
          unfold State.eligible at hy'
          split at hy'
          · cases hy'
          · exact hy'
        have hsel' : s.portless.tb.selected = some .refin := hsel
        rw [State.classOf, hsel', Option.bind_some, hc]
        exact Nat.le_refl _
      rw [selection_stays (v := s.portless) hst hel fun c z hz => by
        rw [hb] at hz
        cases hz
        exact hcls]
    · have hst' : s.portless.tb.state = .acquiring := hst
      have hsel' : s.portless.tb.selected = some .refin := hsel
      simp only [State.selection, hst', hel, hb, hsel', if_true]
  · rw [State.portless, ← noCandidate ‹_›]

end

/-! ### Every port stands in VACANT (R44, R172) -/

/-- A port without candidacy that a hub restart takes out of service. -/
theorem vacates_eq {p : PortIx} {w : State} (h : w.tb.candidates[p] = none) : ∃ streams taps store lines posts,
    resetPort p true .reset w = { w with
      ports := w.ports.set p ((w.ports[p]).cleared.leaves .vacant w.clock.cycle), origins := w.origins.set p none
      delays := w.delays.set p (w.delays[p]).clear, egress := w.egress.set p { w.egress[p] with dueBeat := none }
      triggers := w.triggers.set p .initial, drainSets := w.drainSets.set p []
      streams := streams, taps := taps, store := store, lines := lines, posts := posts } := by
  have hout : ∀ v : State, moveTo p .vacant .reset v = v.withPortOut p .vacant .reset := fun v => moveTo_out (.inl rfl)
  by_cases hact : (w.ports[p]).state = .active
  · obtain ⟨streams, taps, store, lines, he, -⟩ := teardown_drains p w
    have hwith : w.withdrawn p = (w.tb, []) := by rw [State.withdrawn, h]; rfl
    have hreset : resetPort p true .reset w = (modPort p Port.cleared (teardown false p w)).withPortOut p .vacant .reset := by
      rw [← hout]
      simp only [resetPort, hact, if_true]
      rfl
    rw [hreset, he, hwith]
    simp only [State.withPortOut, modPort, vget_set, if_true, Vector.set_set]
    exact ⟨_, _, _, _, _, rfl⟩
  · have hreset : resetPort p true .reset w = (modPort p Port.cleared w).withPortOut p .vacant .reset := by
      rw [← hout]
      simp only [resetPort, hact, if_false]
      rfl
    rw [hreset]
    simp only [State.withPortOut, modPort, vget_set, if_true, Vector.set_set]
    exact ⟨_, _, _, _, _, rfl⟩

/-- The ports of a list stand in VACANT: those that did not stand there before hold nothing. -/
structure Vacated (w : State) (done : List PortIx) (u : State) : Prop where
  shape : ∃ ports origins delays egress triggers drainSets streams taps store lines posts, u = { w with
    ports := ports, origins := origins, delays := delays, egress := egress, triggers := triggers, drainSets := drainSets
    streams := streams, taps := taps, store := store, lines := lines, posts := posts }
  kept : ∀ p : PortIx, (u.egress[p]).flight = (w.egress[p]).flight ∧ (u.ports[p]).presence = (w.ports[p]).presence
  vacant : ∀ p ∈ done, (u.ports[p]).state = .vacant ∧ ((w.ports[p]).state ≠ .vacant → u.HoldsNothing p)
  later : ∀ p : PortIx, p ∉ done → (u.ports[p]).state = (w.ports[p]).state

theorem Vacated.refl (w : State) : Vacated w [] w where
  shape := ⟨_, _, _, _, _, _, _, _, _, _, _, rfl⟩
  kept _ := ⟨rfl, rfl⟩
  vacant _ hp := (List.not_mem_nil hp).elim
  later _ _ := rfl

/-- One port more stands in VACANT. -/
theorem Vacated.vacates {w u : State} {done : List PortIx} {i : PortIx} (h : Vacated w done u) (hn : w.tb.candidates[i] = none) :
    Vacated w (done ++ [i]) (resetPort i true .reset u) := by
  obtain ⟨⟨_, _, _, _, _, _, _, _, _, _, _, hu⟩, hkept, hvacant, hlater⟩ := h
  obtain ⟨streams, taps, store, lines, posts, hr⟩ := vacates_eq (p := i) (w := u) (by rw [hu]; exact hn)
  have hport : ∀ q : PortIx, (resetPort i true .reset u).ports[q] =
      if q = i then (u.ports[i]).cleared.leaves .vacant u.clock.cycle else u.ports[q] := fun q => by rw [hr, vget_set]
  have hflight : ∀ q : PortIx, ((resetPort i true .reset u).egress[q]).flight = (u.egress[q]).flight := fun q => by
    rw [hr, vget_set]
    split
    · subst_vars; rfl
    · rfl
  have hown : (resetPort i true .reset u).HoldsNothing i := by
    have hset : ∀ {α : Type} (l : Vector α 12) (a : α), (l.set i a)[i] = a := fun l a => by rw [vget_set, if_pos rfl]
    unfold State.HoldsNothing
    rw [hport, if_pos rfl, hr]
    refine ⟨rfl, rfl, rfl, rfl, rfl, rfl, rfl, ?_, ?_, ?_, ?_, hset .., hset .., congrArg Egress.dueBeat (hset ..), hset ..⟩
    · exact congrArg Delay.estimate (hset u.delays (u.delays[i]).clear)
    · exact congrArg Delay.due (hset u.delays (u.delays[i]).clear)
    · exact congrArg Delay.outstanding (hset u.delays (u.delays[i]).clear)
    · exact congrArg Delay.training (hset u.delays (u.delays[i]).clear)
  have hother : ∀ q : PortIx, q ≠ i → u.HoldsNothing q → (resetPort i true .reset u).HoldsNothing q := fun q hq hh => by
    unfold State.HoldsNothing
    rw [hr]
    simp only [vget_set, if_neg hq]
    exact hh
  refine ⟨?_, fun q => ?_, fun q hq => ?_, fun q hq => ?_⟩
  · rw [hr, hu]
    exact ⟨_, _, _, _, _, _, _, _, _, _, _, rfl⟩
  · refine ⟨(hflight q).trans (hkept q).1, ?_⟩
    rw [hport, ← (hkept q).2]
    split
    · subst_vars; exact leaves_presence ..
    · rfl
  · by_cases hqi : q = i
    · subst hqi
      exact ⟨by rw [hport, if_pos rfl, leaves_state], fun _ => hown⟩
    · obtain ⟨hst, hh⟩ := hvacant q ((List.mem_append.mp hq).resolve_right (by simpa using hqi))
      exact ⟨by rw [hport, if_neg hqi, hst], fun e => hother q hqi (hh e)⟩
  · obtain ⟨hq, hqi⟩ : q ∉ done ∧ q ≠ i := by simpa using hq
    rw [hport, if_neg hqi, hlater q hq]

/-- All ports stand in VACANT, once those that did not have been reset. -/
theorem ports_vacated {w : State} (h : w.tb.candidates = Vector.replicate 12 none) :
    Vacated w allPorts (each allPorts (fun p s => if (s.ports[p]).state = .vacant then s else resetPort p true .reset s) w) := by
  refine each_taking (Inv := Vacated w) (Vacated.refl w) fun pre i rest hall u hu => ?_
  have hpre : i ∉ pre := fun hi => (List.nodup_append.mp (hall ▸ nodup_allPorts)).2.2 i hi i List.mem_cons_self rfl
  split
  · rename_i hv
    obtain ⟨hshape, hkept, hvacant, hlater⟩ := hu
    refine ⟨hshape, hkept, fun p hp => ?_, fun p hp => hlater p fun e => hp (List.mem_append_left _ e)⟩
    rcases List.mem_append.mp hp with hp | hp
    · exact hvacant p hp
    · obtain rfl := List.mem_singleton.mp hp
      exact ⟨hv, fun e => absurd ((hlater p hpre).symm.trans hv) e⟩
  · exact hu.vacates (by rw [h]; exact vget_replicate ..)

/-! ### Every stream drains for no one, and no tap is left (R105, R131) -/

/-- Every stream in use is DRAINING, without producer and without close order pending. -/
def State.abandoned (s : State) : Prop :=
  ∀ st r, s.streams[(st : StreamIx)] = some r → r.state = .draining ∧ r.producer = none ∧ r.closeBy = none

theorem abandoned_modStream {f : Stream → Stream} {a : StreamIx} {s : State}
    (hf : ∀ r, r.state = .draining ∧ r.producer = none ∧ r.closeBy = none →
      (f r).state = .draining ∧ (f r).producer = none ∧ (f r).closeBy = none) (h : s.abandoned) : (modStream a f s).abandoned := by
  intro st r' hr'
  simp only [modStream, vget_set] at hr'
  split at hr'
  · subst_vars
    obtain ⟨r, hr, rfl⟩ := Option.map_eq_some_iff.mp hr'
    exact hf r (h _ r hr)
  · exact h st r' hr'

/-- The end of an event leaves such streams alone, or frees them. -/
theorem abandoned_keeps : EndKeeps State.abandoned where
  removeTap t s hs := by
    cases hx : s.taps[t] with
    | none => rwa [removeTap_none hx]
    | some x =>
      obtain ⟨sto, he⟩ := removeTap_some hx
      rw [he]
      exact abandoned_modStream (f := Stream.loses t x.pending) (a := x.stream) (fun _ h => h) hs
  modOrigin o f s hs := by cases o <;> exact hs
  posts _ _ hs := hs
  freeReads _ _ hs := hs
  ended _ _ hs := abandoned_modStream (fun _ h => ⟨h.1, h.2.1, rfl⟩) hs
  freed a s _ _ _ hs st r' hr' := by
    simp only [vget_set] at hr'
    split at hr'
    · cases hr'
    · exact hs st r' hr'
  drained _ _ _ hs := hs
  eased _ b _ hs := abandoned_modStream (f := fun r => { r with eased := b }) (fun _ h => h) hs

theorem streams_settled (u : State) : ∃ streams, each allStreams (fun st => modStream st Stream.settle) u = { u with streams := streams } ∧
    (each allStreams (fun st => modStream st Stream.settle) u).abandoned := by
  obtain ⟨hshape, hdone⟩ := each_taking (is := allStreams) (f := fun st => modStream st Stream.settle) (s := u)
    (Inv := fun pre v => (∃ streams, v = { u with streams := streams }) ∧
      ∀ st ∈ pre, ∀ r, v.streams[st] = some r → r.state = .draining ∧ r.producer = none ∧ r.closeBy = none)
    ⟨⟨_, rfl⟩, fun _ h => (List.not_mem_nil h).elim⟩ fun pre i rest _ v ⟨⟨streams, hv⟩, hd⟩ => by
      refine ⟨⟨_, by rw [hv]; rfl⟩, fun st hst r' hr' => ?_⟩
      simp only [modStream, vget_set] at hr'
      split at hr'
      · obtain ⟨r, -, rfl⟩ := Option.map_eq_some_iff.mp hr'
        exact ⟨rfl, rfl, rfl⟩
      · exact hd st ((List.mem_append.mp hst).resolve_right (by simpa using ‹¬ _›)) r' hr'
  obtain ⟨streams, he⟩ := hshape
  exact ⟨streams, he, fun st => hdone st (mem_allStreams st)⟩

theorem taps_removed {u : State} (h : u.abandoned) : ∃ streams taps store, each allTaps removeTap u = { u with
      streams := streams, taps := taps, store := store } ∧ (each allTaps removeTap u).abandoned ∧
    ∀ v : TapIx, (each allTaps removeTap u).taps[v] = none := by
  obtain ⟨⟨streams, taps, store, he⟩, hab, hdone⟩ := each_taking (is := allTaps) (f := removeTap) (s := u)
    (Inv := fun pre v => (∃ streams taps store, v = { u with streams := streams, taps := taps, store := store }) ∧
      v.abandoned ∧ ∀ t ∈ pre, v.taps[t] = none)
    ⟨⟨_, _, _, rfl⟩, h, fun _ h => (List.not_mem_nil h).elim⟩ fun pre i rest _ v ⟨⟨streams, taps, store, hv⟩, hab, hd⟩ => by
      refine ⟨?_, abandoned_keeps.removeTap i v hab, fun t ht => ?_⟩
      · cases hx : v.taps[i] with
        | none => rw [removeTap_none hx]; exact ⟨_, _, _, hv⟩
        | some x =>
          obtain ⟨_, he⟩ := removeTap_some hx
          rw [he, hv]
          exact ⟨_, _, _, rfl⟩
      · refine removeTap_gone ?_
        rcases List.mem_append.mp ht with ht | ht
        · exact .inr (hd t ht)
        · exact .inl (List.mem_singleton.mp ht)
  exact ⟨streams, taps, store, he, hab, fun v => hdone v (List.mem_finRange v)⟩

/-- What a hub restart leaves at once. -/
theorem settleHub_leaves (w : State) : Vacated { w with tb := w.leftTb } allPorts (settleHub w) ∧ (settleHub w).abandoned ∧
    ∀ v : TapIx, (settleHub w).taps[v] = none := by
  obtain ⟨posts, hw⟩ := withdrawPorts_eq w
  have hports := ports_vacated (w := withdrawPorts w) (by rw [hw]; exact leftTb_candidates)
  obtain ⟨streams, hs, hab⟩ := streams_settled (each allPorts (fun p s =>
    if (s.ports[p]).state = .vacant then s else resetPort p true .reset s) (withdrawPorts w))
  obtain ⟨streams', taps, store, ht, hab', htaps⟩ := taps_removed hab
  refine ⟨?_, hab', htaps⟩
  show Vacated _ _ (each allTaps removeTap (each allStreams _ (each allPorts _ _)))
  rw [ht, hs]
  generalize each allPorts _ (withdrawPorts w) = u at hports
  obtain ⟨⟨_, _, _, _, _, _, _, _, _, _, _, hu⟩, hkept, hvacant, hlater⟩ := hports
  rw [hw] at hu hkept hvacant hlater
  exact ⟨⟨_, _, _, _, _, _, _, _, _, _, _, by rw [hu]⟩, hkept, hvacant, hlater⟩

end Sys2Proof.Machine
end

section
namespace Sys2Proof.Machine

/-! ### A hub restart: what it leaves at once, and its completion (R44, R82, R172) -/

/-- The state of a hub restart before its completion. -/
def State.restartBegun (w : State) : State := { settleHub w with restarting := true }

/-- The state in which the owning rule of RESTART HUB takes the order of S. -/
def State.restartOrdered (s : State) (ident : Byte) (f : Fraction) : State := running .service ident .restartHub (opened f s)

theorem restartHub_runs {s : State} (h : s.ready .service = true) (ident : Byte) (f : Fraction) :
    exec (.restartHub .service ident [] f) s = .next (finish s (tryComplete (s.restartOrdered ident f).restartBegun)) := by
  have hown : ∀ w : State, ownOrder .restartHub .service [] w = tryComplete w.restartBegun := fun w => by
    show ownRestartHub .service [] w = _
    rw [ownRestartHub, State.restartBegun]
    exact if_neg (by simp)
  have hruns := ready_runs (c := .restartHub) (ident := ident) (args := []) (f := f) h rfl (by simp)
  rw [hown] at hruns
  exact hruns

theorem tryComplete_done {z : State} (hr : z.restarting = true) (hf : z.anyFlight = false) : tryComplete z = completeRestart z := by
  rw [tryComplete, hr, hf]
  rfl

theorem tryComplete_waits {z : State} (h : z.restarting = false ∨ z.anyFlight = true) : tryComplete z = z := by
  rcases h with h | h
  · rw [tryComplete, h]
    rfl
  · rw [tryComplete, h, Bool.not_true, Bool.and_false]
    rfl

/-! ### Parcels in flight -/

section
variable {s : State}

theorem slotNow_bounds (s : State) : 2 * s.clock.cycle ≤ s.slotNow ∧ s.slotNow ≤ 2 * s.clock.cycle + 1 := by
  unfold State.slotNow State.slotNumber
  split <;> omega

theorem anyFlight_none (h : ∀ (p : PortIx) x, (s.egress[p]).flight = some x → x.kind = .plain ∧ x.stop ≤ 2 * s.clock.cycle) :
    s.anyFlight = false := by
  refine List.any_eq_false.mpr fun p _ => ?_
  unfold State.inFlight
  cases hx : (s.egress[p]).flight with
  | none => simp
  | some x =>
    obtain ⟨hk, hstop⟩ := h p x hx
    have hslot := (slotNow_bounds s).1
    have hpast : ¬ s.slotNow < x.stop := by omega
    simp [hk, hpast]

theorem anyFlight_some {p : PortIx} {x : Flight} (hx : (s.egress[p]).flight = some x)
    (h : x.kind ≠ .plain ∨ 2 * s.clock.cycle + 1 < x.stop) : s.anyFlight = true := by
  refine List.any_eq_true.mpr ⟨p, mem_allPorts p, ?_⟩
  have hslot := (slotNow_bounds s).2
  unfold State.inFlight
  rw [hx]
  rcases h with h | h
  · simp [h]
  · have hlate : s.slotNow < x.stop := by omega
    simp [hlate]

end

/-! ### The state before the completion -/

theorem Vacated.marked {w u : State} {done : List PortIx} (h : Vacated w done u) :
    Vacated { w with restarting := true } done { u with restarting := true } := by
  obtain ⟨⟨_, _, _, _, _, _, _, _, _, _, _, hu⟩, hkept, hvacant, hlater⟩ := h
  refine ⟨?_, hkept, hvacant, hlater⟩
  rw [hu]
  exact ⟨_, _, _, _, _, _, _, _, _, _, _, rfl⟩

theorem restartBegun_leaves (w : State) : Vacated { w with tb := w.leftTb, restarting := true } allPorts w.restartBegun ∧
    w.restartBegun.abandoned ∧ ∀ v : TapIx, w.restartBegun.taps[v] = none := by
  obtain ⟨hv, hab, htaps⟩ := settleHub_leaves w
  rw [State.restartBegun]
  generalize settleHub w = u at hv hab htaps ⊢
  exact ⟨hv.marked, hab, htaps⟩

section
variable {s z : State} {ident : Byte} {f : Fraction} (h : z = (s.restartOrdered ident f).restartBegun)
include h

theorem begun_same : z.atRest = s.atRest ∧ sameRackTime s z ∧ z.setup = s.setup ∧ z.pins = s.pins ∧
    z.restarting = true ∧ z.service.origin.slot = some ⟨ident, 0x1A, none⟩ ∧ z.tb = (s.restartOrdered ident f).leftTb := by
  obtain ⟨⟨⟨_, _, _, _, _, _, _, _, _, _, _, hz⟩, -, -, -⟩, -⟩ := restartBegun_leaves (s.restartOrdered ident f)
  rw [← h] at hz
  rw [hz]
  exact ⟨rfl, ⟨rfl, rfl, rfl⟩, rfl, rfl, rfl, rfl, rfl⟩

theorem begun_port (p : PortIx) : (z.egress[p]).flight = (s.egress[p]).flight ∧ (z.ports[p]).presence = (s.ports[p]).presence ∧
    (z.ports[p]).state = .vacant ∧ ((s.ports[p]).state ≠ .vacant → z.HoldsNothing p) := by
  obtain ⟨⟨-, hkept, hvacant, -⟩, -⟩ := restartBegun_leaves (s.restartOrdered ident f)
  rw [← h] at hkept hvacant
  exact ⟨(hkept p).1, (hkept p).2, (hvacant p (mem_allPorts p)).1, (hvacant p (mem_allPorts p)).2⟩

theorem begun_tables : z.abandoned ∧ ∀ v : TapIx, z.taps[v] = none := by
  rw [h]
  exact (restartBegun_leaves _).2

/-- The timebase before the completion, where the reference was a candidate port, or is REFIN. -/
theorem begun_holds {q : PortIx} (hst : s.tb.state = .locked) (hsel : s.tb.selected = some (.port q))
    (hq : s.tb.candidates[q] ≠ none) (hr : s.eligible .refin = none) : z.tb = s.portless.tb.holds :=
  (begun_same h).2.2.2.2.2.2.trans (leftTb_holds (s := s.restartOrdered ident f) hst hsel hq hr)

theorem begun_frees {q : PortIx} (hst : s.tb.state = .acquiring) (hsel : s.tb.selected = some (.port q))
    (hq : s.tb.candidates[q] ≠ none) (hr : s.eligible .refin = none) : z.tb = s.portless.tb.frees s.settings.localTrim :=
  (begun_same h).2.2.2.2.2.2.trans (leftTb_frees (s := s.restartOrdered ident f) hst hsel hq hr)

theorem begun_stays (hsel : s.tb.selected = some .refin) (hr : s.eligible .refin ≠ none)
    (hst : s.tb.state = .locked ∨ s.tb.state = .acquiring) : z.tb = s.portless.tb :=
  (begun_same h).2.2.2.2.2.2.trans (leftTb_stays (s := s.restartOrdered ident f) hsel hr hst)

/-- The completion in the event of the order. -/
theorem begun_completes (hrest : s.atRest = false) (s0 : State) : Completed ident s (finish s0 (completeRestart z)) ∧
    (finish s0 (completeRestart z)).tb = z.restartTb := by
  obtain ⟨hz, htime, hsetup, hpins, -, hslot, htb⟩ := begun_same h
  obtain ⟨hbeat, hexp⟩ := leftTb_kept (s := s.restartOrdered ident f)
  exact completeRestart_completed (hz.trans hrest) htime (by rw [htb]; exact hbeat) (by rw [htb]; exact hexp) hsetup hpins hslot
    fun p => (begun_port h p).2.1

/-- Where neither REFIN nor a port can be selected, the completion stays in HOLDOVER. -/
theorem completed_holdover {q : PortIx} (hst : s.tb.state = .locked) (hsel : s.tb.selected = some (.port q))
    (hq : s.tb.candidates[q] ≠ none) (hr : s.tb.refinActive = false ∨ s.tb.refinFailed = true) :
    z.restartTb.state = .holdover ∧ z.restartTb.selected = none ∧ z.restartTb.trim = s.tb.savedTrim ∧ z.restartTb.pull = 0 := by
  have hnone : ∀ u : State, u.tb.refinActive = s.tb.refinActive → u.tb.refinFailed = s.tb.refinFailed → u.eligible .refin = none :=
    fun u ha hf => by
      rw [eligible_refin, ha, hf]
      refine if_neg fun e => ?_
      obtain ⟨e1, -, e2⟩ := e
      rcases hr with hr | hr
      · rw [hr] at e2; cases e2
      · rw [hr] at e1; cases e1
  have htb := begun_holds h hst hsel hq (hnone s rfl rfl)
  have hidle : z.cleared.selection 6 = (z.tb, []) := by
    have hstate : z.cleared.tb.state = .holdover := by
      show z.tb.state = _
      rw [htb]; rfl
    refine selection_idle (v := z.cleared) (.inr hstate) (best_none fun c => ?_)
    have hcleared : z.cleared.tb = s.portless.tb.holds := htb
    cases c with
    | refin => exact hnone _ (by rw [hcleared]; rfl) (by rw [hcleared]; rfl)
    | port p =>
      unfold State.eligible
      split
      · rfl
      · show z.cleared.tb.candidates[p] = none
        rw [hcleared]
        exact vget_replicate (α := Option Candidacy) none p
  unfold State.restartTb
  rw [hidle, htb]
  exact ⟨rfl, rfl, rfl, rfl⟩

/-- What the event of the order ends with where parcels are in flight. -/
theorem begun_waits (s0 : State) : (finish s0 z).restarting = true ∧ (finish s0 z).service.origin.slot = some ⟨ident, 0x1A, none⟩ ∧
    sameRackTime s (finish s0 z) ∧ (finish s0 z).tb = z.tb ∧
    (∀ q : PortIx, ((finish s0 z).ports[q]).state = .vacant ∧ ((finish s0 z).egress[q]).flight = (s.egress[q]).flight ∧
      ((s.ports[q]).state ≠ .vacant → (finish s0 z).HoldsNothing q)) ∧
    (∀ v : TapIx, (finish s0 z).taps[v] = none) ∧ (finish s0 z).abandoned := by
  obtain ⟨-, htime, -, -, hres, hslot, -⟩ := begun_same h
  obtain ⟨hab, htaps⟩ := begun_tables h
  have htab := tables_finish s0 z
  refine ⟨(restarting_keeps true).finish hres, ?_, ?_, htab.tb, fun q => ?_, fun v => (noTap_keeps v).finish (htaps v),
    abandoned_keeps.finish hab⟩
  · have hclose : ∀ st, ¬ z.closes st .service := fun st ⟨r, hr, hc⟩ => by
      rw [(hab st r hr).2.2] at hc
      cases hc
    obtain ⟨v, hfin, ⟨horigin, -, -⟩, hv⟩ := finish_posted (s0 := s0) (.inr hclose)
    rw [hfin, queueFarewells_service, flush_restarting (hv.trans hres)]
    have hsame : v.service.origin = z.service.origin := Option.some.inj horigin
    show v.service.origin.slot = _
    rw [hsame, hslot]
  · unfold sameRackTime
    rw [htab.clock]
    exact htime
  · obtain ⟨hflight, -, hvac, hholds⟩ := begun_port h q
    rw [htab.ports, htab.egress]
    refine ⟨hvac, hflight, fun hne => ?_⟩
    have hz := hholds hne
    unfold State.HoldsNothing at hz ⊢
    obtain ⟨h1, h2, h3, h4, h5, h6, h7, h8, h9, h10, h11, horigin, h13, h14, hset⟩ := hz
    obtain ⟨ho, hd⟩ := (emptyOrigin_keeps q).finish (s0 := s0) ⟨horigin, hset⟩
    rw [htab.ports, htab.egress, htab.delays, htab.triggers]
    exact ⟨h1, h2, h3, h4, h5, h6, h7, h8, h9, h10, h11, ho, h13, h14, hd⟩

end

/-! ### RESTART HUB and RESTART_COMPLETION -/

/-- With no parcel in flight RESTART HUB completes in its event. -/
theorem restartHub_completes {s : State} (hs : s.ready .service = true) (ident : Byte) (f : Fraction)
    (hf : ∀ (p : PortIx) x, (s.egress[p]).flight = some x → x.kind = .plain ∧ x.stop ≤ 2 * s.clock.cycle) :
    Runs (exec (.restartHub .service ident [] f) s) fun t => Completed ident s t ∧
      (∀ q : PortIx, s.tb.state = .locked → s.tb.selected = some (.port q) → s.tb.candidates[q] ≠ none →
        s.tb.refinActive = false ∨ s.tb.refinFailed = true →
        t.tb.state = .holdover ∧ t.tb.selected = none ∧ t.tb.trim = s.tb.savedTrim ∧ t.tb.pull = 0) := by
  obtain ⟨hrest, -⟩ := slotFree_iff.mp (ready_iff.mp hs).1
  generalize hz : (s.restartOrdered ident f).restartBegun = z
  obtain ⟨-, ⟨-, -, hcycle⟩, -, -, hres, -⟩ := begun_same hz.symm
  have hnone : z.anyFlight = false := anyFlight_none fun p x hx => by
    rw [(begun_port hz.symm p).1] at hx
    rw [hcycle]
    exact hf p x hx
  obtain ⟨hcompleted, htb⟩ := begun_completes hz.symm hrest s
  refine ⟨finish s (completeRestart z), ?_, hcompleted, fun q hst hsel hq hr => ?_⟩
  · rw [restartHub_runs hs, hz, tryComplete_done hres hnone]
  · rw [htb]
    exact completed_holdover hz.symm hst hsel hq hr

/-- With a parcel in flight RESTART HUB stays RUNNING. -/
theorem restartHub_waits {s : State} (hs : s.ready .service = true) (ident : Byte) (f : Fraction) {p : PortIx} {x : Flight}
    (hx : (s.egress[p]).flight = some x) (hfly : x.kind ≠ .plain ∨ 2 * s.clock.cycle + 1 < x.stop) :
    exec (.restartHub .service ident [] f) s = .next (finish s (s.restartOrdered ident f).restartBegun) := by
  generalize hz : (s.restartOrdered ident f).restartBegun = z
  obtain ⟨-, ⟨-, -, hcycle⟩, -, -, -, -⟩ := begun_same hz.symm
  have hany : z.anyFlight = true := anyFlight_some ((begun_port hz.symm p).1.trans hx) (by rw [hcycle]; exact hfly)
  rw [restartHub_runs hs, hz, tryComplete_waits (.inr hany)]

theorem restartCompletion_waits {s : State} (hrest : s.atRest = false) (h : s.restarting = false ∨ s.anyFlight = true) :
    exec .restartCompletion s = .next (begin_ s) := by
  have hexec : exec .restartCompletion s = .next (finish s (tryComplete (begin_ s))) := event_running hrest
  rw [hexec, tryComplete_waits (z := begin_ s) h,
    finish_untouched (s := s) (t := begin_ s) rfl rfl (fun _ => id) rfl rfl rfl]

theorem restartCompletion_completes {s : State} {ident : Byte} (hrest : s.atRest = false) (hr : s.restarting = true)
    (hf : s.anyFlight = false) (hslot : s.service.origin.slot = some ⟨ident, 0x1A, none⟩) :
    Runs (exec .restartCompletion s) (Completed ident s) := by
  have hexec : exec .restartCompletion s = .next (finish s (tryComplete (begin_ s))) := event_running hrest
  rw [hexec, tryComplete_done (z := begin_ s) hr hf]
  exact ⟨_, rfl, (completeRestart_completed (z := begin_ s) hrest ⟨rfl, rfl, rfl⟩ rfl rfl rfl rfl hslot fun _ => rfl).1⟩

/-- Settles O59: what the order leaves at once is `settleHub`'s, all that its completion leaves is `completeRestart_completed`. -/
theorem restartHub : Obligations.RestartHub := by
  unfold Obligations.RestartHub
  refine ⟨fun ident f s hs => ⟨restartHub_completes hs ident f, fun p x hx hfly => ?_⟩,
    fun ident s hrest => ⟨restartCompletion_waits hrest, restartCompletion_completes hrest⟩⟩
  obtain ⟨hres, hslot, htime, htb, hports, htaps, hstreams⟩ := begun_waits (s := s) (ident := ident) (f := f) rfl s
  refine ⟨_, restartHub_waits hs ident f hx hfly, hres, hslot, htime,
    ⟨fun q hsel hq hr => ⟨fun hst => ?_, fun hst => ?_⟩, fun hsel hr hst => ?_⟩, hports, htaps, hstreams⟩
  · exact htb.trans (begun_holds rfl hst hsel hq hr)
  · exact htb.trans (begun_frees rfl hst hsel hq hr)
  · exact htb.trans (begun_stays rfl hsel hr hst)

end Sys2Proof.Machine
end
